-- ==== Sys2Proof/Word.lean ====
section
/-! DEFINITION. The plain data words of the XC460: a byte of a telegram or of a plan bank, a value of the
crossing clock (R1), and a moment measured finer than a millisecond. -/

namespace Sys2Proof

/-- One byte of a telegram or of a plan bank (R47, R51). -/
abbrev Byte := BitVec 8

/-- A value of the crossing clock: a 32-bit count of milliseconds that wraps (R1). -/
abbrev Time := BitVec 32

/-- A moment measured finer than a millisecond: a value of the crossing clock and the microseconds past it. The spec
measures two things so finely, the residence time of a telegram (R38) and the length of a wheel pulse (R67). -/
structure Moment where
  ms : Time
  us : Nat
  deriving DecidableEq, Repr

end Sys2Proof
end

