-- ==== Sys2Proof/Config.lean ====
section
/-! DEFINITION. What one installation fixes, the crossing plan of the manual's first chapter, and the free values that
the spec leaves open. A free value has no body: nothing can be proved of the value it takes. -/

namespace Sys2Proof

/-- The side of the part a telegram arrives on, or a port record belongs to: the box port or the field port (R27). -/
inductive Port where
  | box
  | field
  deriving DecidableEq, Repr

/-- Where a detection point's telegrams come from: the `side` of a DP entry and the arrival port of a DP record
(R8, R53). -/
inductive Side where
  | box
  | field
  | localHead
  deriving DecidableEq, Repr

/-- A counting direction of a detection point, or the direction of an approach (R9, R10). -/
inductive CountDir where
  | inc
  | dec
  deriving DecidableEq, Repr

/-- The source of a DP entry (R8). -/
inductive DpSource where
  | line
  | head
  deriving DecidableEq, Repr

/-- An entry of the DP table (R8). The head index of a line DP is not used. -/
structure DpEntry where
  source  : DpSource
  side    : Side
  address : Byte
  head    : Nat
  track   : Nat
  deriving DecidableEq, Repr

/-- The kind of a section (R9). -/
inductive SectionKind where
  | approach
  | island
  | exit
  deriving DecidableEq, Repr

/-- One pair of a bounding list: a DP index and the direction in which an axle enters the section over it (R9). -/
structure Bound where
  dp       : Nat
  entering : CountDir
  deriving DecidableEq, Repr

/-- An entry of the section table (R9). -/
structure SectionEntry where
  id     : Nat
  track  : Nat
  kind   : SectionKind
  direct : Bool
  bounds : List Bound
  deriving DecidableEq, Repr

/-- One timing point of an approach: a DP index and its distance to the crossing in dm (R10). -/
structure TimingPoint where
  dp   : Nat
  dist : Nat
  deriving DecidableEq, Repr

/-- An entry of the approach table (R10). Positions in the timing list are counted from 1. -/
structure ApproachEntry where
  track         : Nat
  dir           : CountDir
  points        : List TimingPoint
  sects         : List Nat
  latest        : Nat
  stopPermitted : Bool
  stopAt        : Nat
  deriving DecidableEq, Repr

/-- The current window of one lamp in mA (R11). -/
structure LampLimits where
  imin : Nat
  imax : Nat
  deriving DecidableEq, Repr

/-- A light group position of the equipment table (R11). -/
structure GroupEntry where
  present : Bool
  amber   : LampLimits
  redA    : LampLimits
  redB    : LampLimits
  deriving DecidableEq, Repr

/-- The role of a barrier machine (R11). -/
inductive Role where
  | entry
  | exit
  deriving DecidableEq, Repr

/-- A machine position of the equipment table (R11). -/
structure MachineEntry where
  present : Bool
  role    : Role
  tLeave  : Nat
  tTravel : Nat
  deriving DecidableEq, Repr

/-- A crossing plan: header parameters (R6), header fields (R7) and the tables (R8 to R11). Times are in ms, distances in
dm, speeds in dm/s; `pminHalf` is head Pmin in half-milliseconds. -/
structure Plan where
  planId          : Nat
  version         : Nat
  remotePermitted : Bool
  panelFitted     : Bool
  testPermitted   : Bool
  audibleFitted   : Bool
  advisory        : Bool
  info            : Bool
  pminHalf        : Nat
  lead            : Nat
  leadMin         : Nat
  tAmber          : Nat
  tRed            : Nat
  tExit           : Nat
  tZone           : Nat
  tMinOpen        : Nat
  tRaiseAllow     : Nat
  tStand          : Nat
  vLine           : Nat
  vMin            : Nat
  vLimit          : Nat
  flashHalf       : Nat
  silence         : Nat
  pmax            : Nat
  tDrain          : Nat
  w2              : Nat
  w1              : Nat
  w0              : Nat
  dps             : List DpEntry
  sects           : List SectionEntry
  approaches      : List ApproachEntry
  groups          : Vector GroupEntry 4
  machines        : Vector MachineEntry 4
  deriving DecidableEq, Repr

/-- FREE VALUE. Which bits of the block's new contents a write that START interrupts has stored: "the block holds its
former contents, its new contents, or a mixture of the two" (R17). The arguments are a fresh draw and the byte's place in
the block. Assumption log 3. -/
opaque Config.interruptedWriteMask : Nat → Nat → Byte

/-- FREE VALUE. The order in which the part takes time events that fall in one millisecond; the spec fixes none (R63,
R96, R105, R143 and others speak of "either order"). The arguments are a fresh draw and how many events are still to be
placed. Assumption log 4. -/
opaque Config.dueChoice : Nat → Nat → Nat

end Sys2Proof
end

