-- ==== Sys2Proof/Syntax.lean ====
section
/-! DEFINITION. The commands of the part: one constructor of `Instr` for each row of the table of operations and events,
with the operands the spec gives that operation or event. -/

namespace Sys2Proof

/-- The two channels of a local wheel-sensor head (R66). -/
inductive Channel where
  | a
  | b
  deriving DecidableEq, Repr

/-- A COMMAND of the signal box as the decoder reads it (R192). Arguments are kept as the bytes the telegram carries, so
that the owning block judges their range. PLAN BLOCK judges its own length, so its arguments are a list. -/
inductive BoxCommand where
  | ackReport (slot change : Byte)
  | reportsStart
  | reportsStop
  | classEnable (cls value : Byte)
  | restoreSection (index mode : Byte)
  | resetLamp (index : Byte)
  | resetMachine (index : Byte)
  | resetHead (index : Byte)
  | remoteRequest
  | remoteRelease
  | remoteClose
  | remoteOpen
  | localRelease
  | localWithdraw
  | testRequest
  | testRelease
  | testStep (step machine : Byte)
  | planBlock (args : List Byte)
  | planCheck
  | planActivate (planId : BitVec 16) (version : Byte)
  | planCancel
  | portIsolate
  | portRestore
  | clearAcked
  | read (kind index : Byte)
  deriving DecidableEq, Repr

/-- The operations and events of the part, one constructor for each row of the table. A command of the box carries its
tag and its argument bytes (R192). An event of the line, of an input or of a timer names the object it concerns. `us` is
how many microseconds past the present millisecond the event falls, where the spec measures so finely (R38, R67). -/
inductive Instr where
  /-- START (R4). -/
  | start
  /-- A whole telegram received on a port (R33): the six header bytes, the body and the two CRC bytes, without the start
  byte (R32). -/
  | telegramReceived (port : Port) (bytes : List Byte) (us : Nat)
  /-- ACK REPORT (R186). -/
  | ackReport (tag slot change : Byte)
  /-- REPORTS START (R188). -/
  | reportsStart (tag : Byte)
  /-- REPORTS STOP (R188). -/
  | reportsStop (tag : Byte)
  /-- CLASS ENABLE (R183). -/
  | classEnable (tag cls value : Byte)
  /-- RESTORE SECTION (R81). -/
  | restoreSection (tag index mode : Byte)
  /-- RESET EQUIPMENT of a lamp (R154). -/
  | resetEquipmentLamp (tag index : Byte)
  /-- RESET EQUIPMENT of a machine (R167). -/
  | resetEquipmentMachine (tag index : Byte)
  /-- RESET EQUIPMENT of a head (R71). -/
  | resetEquipmentHead (tag index : Byte)
  /-- REMOTE REQUEST (R135). -/
  | remoteRequest (tag : Byte)
  /-- REMOTE RELEASE (R135). -/
  | remoteRelease (tag : Byte)
  /-- REMOTE CLOSE (R121, R139). -/
  | remoteClose (tag : Byte)
  /-- REMOTE OPEN (R121, R139). -/
  | remoteOpen (tag : Byte)
  /-- LOCAL RELEASE (R137). -/
  | localRelease (tag : Byte)
  /-- LOCAL WITHDRAW (R137). -/
  | localWithdraw (tag : Byte)
  /-- TEST REQUEST (R136). -/
  | testRequest (tag : Byte)
  /-- TEST RELEASE (R136). -/
  | testRelease (tag : Byte)
  /-- TEST STEP (R139, R140). -/
  | testStep (tag step machine : Byte)
  /-- PLAN BLOCK (R16): block number and data bytes. -/
  | planBlock (tag : Byte) (args : List Byte)
  /-- Completion of the block write in flight (R16). -/
  | planBlockWriteComplete
  /-- PLAN CHECK (R18). -/
  | planCheck (tag : Byte)
  /-- PLAN ACTIVATE (R19). -/
  | planActivate (tag : Byte) (planId : BitVec 16) (version : Byte)
  /-- PLAN CANCEL (R24). -/
  | planCancel (tag : Byte)
  /-- PORT ISOLATE (R194). -/
  | portIsolate (tag : Byte)
  /-- PORT RESTORE (R194). -/
  | portRestore (tag : Byte)
  /-- CLEAR ACKED (R189). -/
  | clearAcked (tag : Byte)
  /-- READ (R193). -/
  | read (tag kind index : Byte)
  /-- The fill byte received in the port's sense (R28). -/
  | fillReceived (port : Port)
  /-- Four consecutive complement bytes received (R30). -/
  | complementBytes (port : Port)
  /-- 200 ms without line activity (R28). -/
  | portActivityTimeout (port : Port)
  /-- 2000 ms in CHECKING (R29). -/
  | checkingComplete (port : Port)
  /-- 10000 ms since the newest error time (R34). -/
  | errorTimeExpiry (port : Port)
  /-- 10000 ms since the newest loop time (R35). -/
  | loopTimeExpiry (port : Port)
  /-- The end of a transmission on a port (R43, R44). -/
  | transmitEnd (port : Port)
  /-- The silence deadline of a DP record (R63). -/
  | dpSilenceDeadline (dp : Nat)
  /-- An edge on a local head channel (R67), to active or to inactive. -/
  | headChannelEdge (head : Fin 8) (channel : Channel) (active : Bool) (us : Nat)
  /-- A head channel active longer than head Pmax (R67). -/
  | headStuck (head : Fin 8) (channel : Channel)
  /-- 60000 ms since a head's newest one-channel time (R69). -/
  | oneChannelExpiry (head : Fin 8)
  /-- 5000 ms after START the restarted flags clear (R66). -/
  | restartedFlagClears
  /-- 500 ms since a named head's last emission (R72). -/
  | headHeartbeat (head : Fin 8)
  /-- The crossing clock reaches the t_s of a PREDICTED demand (R96). -/
  | startTimeTimer (approach : Nat)
  /-- The standing deadline of a demand (R105). -/
  | standingDeadline (approach : Nat)
  /-- The crossing's state timer (R115, R116). -/
  | stateTimerDeadline
  /-- The crossing's exit timer (R117). -/
  | exitTimerDeadline
  /-- The step end of a LAMP TEST (R141). -/
  | lampTestEnd
  /-- An edge of the panel KEY input (R138). -/
  | keyEdge (active : Bool)
  /-- An edge of the panel CLOSE input (R113, R138). -/
  | panelCloseEdge (active : Bool)
  /-- An edge of the panel OPEN input (R121, R138). -/
  | panelOpenEdge (active : Bool)
  /-- An edge of the ZONE input (R170). -/
  | zoneEdge (active : Bool)
  /-- The hold deadline of the zone record (R171). -/
  | holdDeadline
  /-- A change of a machine's detectors (R161): their levels after it. -/
  | machineDetectorChange (machine : Fin 4) (up down boom : Bool)
  /-- The leave deadline of a machine (R160). -/
  | leaveDeadline (machine : Fin 4)
  /-- The travel deadline of a machine (R161). -/
  | travelDeadline (machine : Fin 4)
  /-- The end of a flash half-period (R147). -/
  | halfPeriodEnd
  /-- The sample point of a half-period (R150, R153): the currents the twelve lamps draw then, in mA. -/
  | lampSamplePoint (currents : Vector Nat 12)
  /-- The drain deadline of a fault record (R180). -/
  | drainDeadline (slot : Fin 64)
  /-- The ack deadline of a SENT record (R187). -/
  | ackDeadline (slot : Fin 64)
  /-- 1000 ms since the last STATUS build (R191). -/
  | statusPeriod
  /-- An edge of the BATT LOW input (R195). -/
  | battLowEdge (active : Bool)
  /-- An edge of the MAINS OFF input (R195). -/
  | mainsOffEdge (active : Bool)
  deriving DecidableEq, Repr

end Sys2Proof
end

