-- ==== Sys2Proof/Machine/State.lean ====
section
/-! DEFINITION. The state of the part as plain data: the records of the twelve blocks, the queue of waiting commands, the
reasons a step can stop, and the state after START of a part as delivered. -/

namespace Sys2Proof.Machine

open Sys2Proof

/-! ### The banks (R14, R15) -/

/-- The addressed store of one bank: address and byte pairs, strictly rising addresses, no entry equal to what an unlisted
address reads as. -/
abbrev Memory := List Host.Cell

/-- What an unlisted address of a bank reads as. DESIGN CHOICE 7. -/
def Memory.blank : Byte := 0

inductive BankId where
  | a
  | b
  deriving DecidableEq, Repr

inductive BankState where
  | empty
  | loading
  | checked
  | bad
  | active
  deriving DecidableEq, Repr

/-- The items of the plan check, in order (R12). -/
inductive PlanItem where
  | length
  | crc
  | range
  | identity
  | reference
  | island
  | order
  | index
  | prediction
  deriving DecidableEq, Repr

/-- The tables a failing item names (R12). -/
inductive PlanTable where
  | dp
  | sect
  | approach
  | equipment
  deriving DecidableEq, Repr

/-- A table and an entry index of a failing item (R12). -/
structure PlanPlace where
  table : PlanTable
  index : Nat
  deriving DecidableEq, Repr

inductive CheckResult where
  | none
  | checked
  | bad (item : PlanItem) (place : Option PlanPlace)
  deriving DecidableEq, Repr

/-- A bank record (R14). -/
structure Bank where
  contents : Memory
  state    : BankState
  result   : CheckResult
  planId   : Nat
  version  : Nat
  deriving DecidableEq, Repr

/-- The write record (R14, R16), with the data the program operation is storing and the time it began. -/
structure BlockWrite where
  block : Nat
  tag   : Byte
  data  : List Byte
  began : Time
  deriving DecidableEq, Repr

/-- The Plan Store (R14). `pending` is the activation flag; `plan` is the plan in force, the parsed contents of the ACTIVE
bank (log 29). -/
structure PlanStore where
  bankA    : Bank
  bankB    : Bank
  selected : BankId
  pending  : Bool
  write    : Option BlockWrite
  plan     : Option Plan
  deriving DecidableEq, Repr

/-! ### Detection (R53, R66) -/

inductive Health where
  | ok
  | degraded
  | failed
  deriving DecidableEq, Repr

inductive DpState where
  | unseen
  | live
  | silent
  | failed
  deriving DecidableEq, Repr

/-- A DP record (R53). UNTIMED is `none` in `lastEvent`. -/
structure DpRec where
  state       : DpState
  baseline    : Bool
  seq         : Byte
  inc         : Nat
  dec         : Nat
  health      : Health
  restart     : Bool
  port        : Side
  lastTime    : Time
  deadline    : Option Time
  missed      : Nat
  deltaInc    : Nat
  deltaDec    : Nat
  lastEvent   : Option Time
  deriving DecidableEq, Repr

inductive HeadCause where
  | none
  | stuck
  | oneChannel
  deriving DecidableEq, Repr

/-- A pulse of a head channel: its beginning and its end. -/
structure Pulse where
  first : Moment
  last  : Moment
  deriving DecidableEq, Repr

/-- One channel of a head (R66): present level, the moment since which it is active, the head Pmax in microseconds under
which it is timed (R21, R67), its last pulse, and its valid pulse waiting for a partner. -/
structure ChannelRec where
  level    : Bool
  since    : Option Moment
  limit    : Nat
  last     : Option Pulse
  unpaired : Option Pulse
  deriving DecidableEq, Repr

/-- A head record (R66). `owed` marks a change that no COUNT has carried yet (R72, log 37). -/
structure HeadRec where
  failed     : Bool
  cause      : HeadCause
  inc        : Nat
  dec        : Nat
  oneChannel : List Time
  a          : ChannelRec
  b          : ChannelRec
  seq        : Byte
  restarted  : Bool
  earliest   : Option Time
  lastSent   : Time
  sentHealth : Health
  owed       : Bool
  deriving DecidableEq, Repr

/-! ### Sections and demands (R73, R87) -/

inductive SectState where
  | clear
  | occupied
  | disturbed
  | restoring
  deriving DecidableEq, Repr

inductive SectCause where
  | start
  | plan
  | silent
  | headFailed
  | restart
  | implausible
  | negative
  | overflow
  deriving DecidableEq, Repr

inductive Restore where
  | none
  | sweep
  | direct
  deriving DecidableEq, Repr

/-- A section record (R73). -/
structure SectRec where
  state       : SectState
  count       : Nat
  cause       : SectCause
  disturbedAt : Time
  restored    : Restore
  balance     : Nat
  inTotal     : Nat
  outTotal    : Nat
  entered     : Bool
  left        : Bool
  deriving DecidableEq, Repr

inductive DemandState where
  | idle
  | timing
  | predicted
  | warning
  | standing
  | clearing
  deriving DecidableEq, Repr

inductive WarnCause where
  | none
  | prediction
  | latestStart
  | timingFailure
  | forced
  | restart
  | following
  deriving DecidableEq, Repr

/-- A demand record (R87). UNTIMED is `none` in `t1` and `pointTime`. `standing` is the standing deadline (R105); the
start-time timer is set, for `ts`, exactly while the demand is PREDICTED (R96). -/
structure DemandRec where
  state       : DemandState
  forced      : Bool
  cause       : WarnCause
  t1          : Option Time
  point       : Option Nat
  pointTime   : Option Time
  speed       : Option Nat
  ts          : Option Time
  warnBegan   : Time
  progress    : Time
  lastWarning : Option Nat
  late        : Bool
  standing    : Option Time
  deriving DecidableEq, Repr

/-! ### The crossing record (R110) -/

/-- The crossing states; `opened` is OPEN. -/
inductive CrossingState where
  | opened
  | amber
  | redLead
  | lowerEntry
  | lowerExit
  | closed
  | degraded
  | raising
  | testActive
  | noPlan
  deriving DecidableEq, Repr

/-- A machine direction (R112, R159). -/
inductive Dir where
  | lower
  | raise
  deriving DecidableEq, Repr

/-- A start figure (R109): t_s in PREDICTED, the provisional margin in TIMING. -/
inductive Figure where
  | none
  | at (ts : Time)
  | margin (ms : Nat)
  deriving DecidableEq, Repr

/-- An entry of the demand view (R110). -/
structure DemandView where
  state  : DemandState
  forced : Bool
  figure : Figure
  deriving DecidableEq, Repr

/-- An entry of the island view: a track of the plan and whether its island is CLEAR (R110). -/
structure IslandView where
  track : Nat
  clear : Bool
  deriving DecidableEq, Repr

/-- The crossing record (R110). `exitRun` marks that the exit timer's deadline has been reached since the lowering start
(R117, log 13). The closure causes, the machine failed flag and PROTECTED are derived from the record and the other blocks
(R113, R128). -/
structure CrossingRec where
  state         : CrossingState
  entered       : Time
  loweringStart : Option Time
  stateTimer    : Option Time
  exitTimer     : Option Time
  exitRun       : Bool
  lastDir       : Vector (Option Dir) 4
  demandView    : List DemandView
  islandView    : List IslandView
  remoteClose   : Bool
  remoteOpen    : Bool
  deriving DecidableEq, Repr

/-- A closure cause (R113). -/
inductive ClosureCause where
  | demand
  | island
  | remoteClose
  | panelClose
  deriving DecidableEq, Repr

/-! ### The authority record (R130) -/

inductive Owner where
  | auto
  | test
  | remote
  | localPanel
  deriving DecidableEq, Repr

inductive Step where
  | none
  | lampTest
  | machineCycle (machine : Fin 4)
  deriving DecidableEq, Repr

inductive StepPhase where
  | none
  | flashing
  | lowering
  | raising
  deriving DecidableEq, Repr

inductive StepOutcome where
  | none
  | complete
  | failed
  | abandoned
  deriving DecidableEq, Repr

/-- The authority record (R130); the lock and the enables are derived (R131, R132). -/
structure AuthorityRec where
  owner         : Owner
  prior         : Owner
  changed       : Time
  remoteRequest : Bool
  testRequest   : Bool
  key           : Bool
  localRelease  : Bool
  step          : Step
  phase         : StepPhase
  stepEnd       : Option Time
  outcome       : StepOutcome
  stepTag       : Byte
  deriving DecidableEq, Repr

/-! ### Lights (R144, R147) -/

inductive LampState where
  | unknown
  | proven
  | failedOpen
  | failedShort
  deriving DecidableEq, Repr

inductive SampleKind where
  | none
  | good
  | low
  | high
  deriving DecidableEq, Repr

/-- A lamp record (R144). Currents are in mA. -/
structure Lamp where
  state   : LampState
  good    : Nat
  bad     : Nat
  last    : Option Nat
  kind    : SampleKind
  driven  : Bool
  enabled : Bool
  lit     : Bool
  dark    : Option Nat
  deriving DecidableEq, Repr

/-- The three lamps of a group (R144). -/
inductive LampKind where
  | amber
  | redA
  | redB
  deriving DecidableEq, Repr

/-- The lamps of one light group position (R144). -/
structure LightGroup where
  amber : Lamp
  redA  : Lamp
  redB  : Lamp
  deriving DecidableEq, Repr

/-- The state of a light group (R145). -/
inductive GroupState where
  | unknown
  | proven
  | degraded
  | failed
  deriving DecidableEq, Repr

/-- A light command (R146). -/
inductive LightCommand where
  | dark
  | amber
  | flash
  | amberFlash
  | noPlan
  deriving DecidableEq, Repr

inductive Phase where
  | a
  | b
  deriving DecidableEq, Repr

/-- The Light Driver: the light command in force, the flash generator (phase, beginning and length of the present
half-period, and whether its sample point has been taken), the lamps and the audible command (R144, R147, R156). -/
structure Lights where
  command : LightCommand
  phase   : Phase
  began   : Time
  length  : Nat
  sampled : Bool
  groups  : Vector LightGroup 4
  audible : Bool
  deriving DecidableEq, Repr

/-! ### Barrier machines and the zone (R157, R170) -/

inductive MachineState where
  | upProved
  | lowering
  | downProved
  | raising
  | halted
  | failed
  deriving DecidableEq, Repr

inductive MachineCause where
  | none
  | noResponse
  | travelTimeout
  | detectorConflict
  | boomLost
  deriving DecidableEq, Repr

/-- A machine record (R157). `drive` is the drive output that is on, so LOWER and RAISE are never on together (R162). -/
structure MachineRec where
  state      : MachineState
  commanded  : Option Dir
  drive      : Option Dir
  cmdTime    : Option Time
  leaveMet   : Bool
  leaveBy    : Option Time
  travelBy   : Option Time
  up         : Bool
  down       : Bool
  boom       : Bool
  cause      : MachineCause
  failTime   : Option Time
  lastTravel : Option Nat
  tLeave     : Nat
  tTravel    : Nat
  deriving DecidableEq, Repr

/-- The zone record (R170). The hold state is WAITING exactly while `waiting` is true. -/
structure ZoneRec where
  occupied  : Bool
  waiting   : Bool
  holdStart : Option Time
  holdBy    : Option Time
  condition : Bool
  deriving DecidableEq, Repr

/-- The Barrier Drive Unit. -/
structure Barrier where
  machines : Vector MachineRec 4
  zone     : ZoneRec
  deriving DecidableEq, Repr

/-! ### The Fault Table and the Report Engine (R172, R184) -/

/-- The fault codes (R174), in the order of their code numbers 1 to 30. -/
inductive FaultCode where
  | start
  | planActivated
  | authorityChanged
  | lateStart
  | shortWarning
  | relowered
  | warningWithdrawn
  | standingTrain
  | dpRestarted
  | lampFailed
  | lampShort
  | lineErrors
  | linePolarity
  | headOneChannel
  | batteryLow
  | mainsOff
  | dpSilent
  | dpHeadFailed
  | dpWrongSide
  | sectionDisturbed
  | timingFailure
  | zoneHold
  | lampLitWhenDark
  | portDown
  | lineLoop
  | listFull
  | machineFailed
  | islandUnprotected
  | lightGroupFailed
  | crossingNoPlan
  deriving DecidableEq, Repr

/-- The source kinds (R50). -/
inductive SourceKind where
  | crossing
  | port
  | dp
  | head
  | sect
  | approach
  | lamp
  | group
  | machine
  | zone
  | cabinet
  | plan
  | faultTable
  deriving DecidableEq, Repr

/-- The source of a fault: kind and index (R50, R172). -/
structure FaultSource where
  kind  : SourceKind
  index : Nat
  deriving DecidableEq, Repr

/-- The fault classes (R174). -/
inductive FaultClass where
  | info
  | advisory
  | urgent
  | safety
  deriving DecidableEq, Repr

inductive ReportState where
  | pending
  | sent
  | acked
  deriving DecidableEq, Repr

/-- A fault record (R172). `active` is its condition, `srcActive` its source state. -/
structure FaultRec where
  code      : FaultCode
  source    : FaultSource
  cls       : FaultClass
  active    : Bool
  srcActive : Bool
  report    : ReportState
  change    : Byte
  raises    : Nat
  level     : Nat
  drain     : Option Time
  latched   : Bool
  first     : Time
  last      : Time
  age       : Nat
  resend    : Nat
  ackBy     : Option Time
  deriving DecidableEq, Repr

/-- The states of the report process (R184). -/
inductive Process where
  | stopped
  | running
  | suspended
  deriving DecidableEq, Repr

/-- The Fault Table and the report process record (R172, R184). Slot 63 is `overflow`. The pending sets are derived from
the records (R183). -/
structure FaultTable where
  ordinary : Vector (Option FaultRec) 63
  overflow : FaultRec
  process  : Process
  window   : List Nat
  timeouts : Nat
  advisory : Bool
  info     : Bool
  deriving DecidableEq, Repr

/-! ### Telegrams and ports (R27, R42) -/

/-- The body of a COUNT telegram (R48). -/
structure CountBody where
  seq       : Byte
  inc       : Nat
  dec       : Nat
  health    : Health
  restarted : Bool
  deriving DecidableEq, Repr

/-- What a STATUS shows of an approach: state and FORCED, or ABSENT (`none`) (R49). -/
structure DemandShown where
  state  : DemandState
  forced : Bool
  deriving DecidableEq, Repr

/-- The content of a STATUS (R191). ABSENT is `none`. -/
structure StatusContent where
  crossing  : CrossingState
  protect   : Bool
  held      : Bool
  pending   : Bool
  owner     : Owner
  prior     : Owner
  demands   : List (Option DemandShown)
  doubtful  : Nat
  groups    : List (Option GroupState)
  machines  : List (Option MachineState)
  planId    : Nat
  version   : Nat
  deriving DecidableEq, Repr

/-- The content of a REPORT (R50, R185). -/
structure ReportContent where
  slot    : Nat
  change  : Byte
  code    : FaultCode
  source  : FaultSource
  cls     : FaultClass
  active  : Bool
  latched : Bool
  raises  : Nat
  first   : Time
  last    : Time
  deriving DecidableEq, Repr

/-- The outcomes of a REPLY (R192). -/
inductive ReplyOutcome where
  | done
  | retry
  | refusedState
  | refusedRange
  | refusedSource
  | unknown
  deriving DecidableEq, Repr

inductive PortState where
  | down
  | checking
  | active
  | isolated
  deriving DecidableEq, Repr

/-- The line counters of a port (R46). -/
structure Counters where
  received      : Nat
  errors        : Nat
  loops         : Nat
  checking      : Nat
  consumed      : Nat
  refusedSource : Nat
  unexpected    : Nat
  overHop       : Nat
  relayed       : Nat
  delivered     : Nat
  wrongSide     : Nat
  notActive     : Nat
  full          : Nat
  replaced      : Nat
  emptied       : Nat
  transmitted   : Nat
  deriving DecidableEq, Repr

/-- One field of REPLY data, by the kind of value it holds (R192, R193). -/
inductive Field where
  | number (n : Nat)
  | optNumber (n : Option Nat)
  | numbers (l : List Nat)
  | flag (b : Bool)
  | time (t : Time)
  | optTime (t : Option Time)
  | times (l : List Time)
  | channel (since : Option Moment) (last : Option Pulse)
  | unpaired (a b : Option Pulse)
  | health (h : Health)
  | dpState (st : DpState)
  | side (s : Side)
  | headCause (c : HeadCause)
  | sectState (st : SectState)
  | sectCause (c : SectCause)
  | restore (r : Restore)
  | sectKind (k : SectionKind)
  | demandState (st : DemandState)
  | warnCause (c : WarnCause)
  | countDir (d : CountDir)
  | crossingState (st : CrossingState)
  | directions (l : List (Option Dir))
  | demandView (l : List DemandView)
  | islandView (l : List IslandView)
  | causes (l : List ClosureCause)
  | owner (o : Owner)
  | step (st : Step)
  | stepPhase (p : StepPhase)
  | stepOutcome (o : StepOutcome)
  | lampState (st : LampState)
  | sampleKind (k : SampleKind)
  | groupState (st : GroupState)
  | machineState (st : MachineState)
  | optDir (d : Option Dir)
  | machineCause (c : MachineCause)
  | role (r : Role)
  | slotFree
  | faultCode (c : FaultCode)
  | source (src : FaultSource)
  | faultClass (c : FaultClass)
  | reportState (st : ReportState)
  | process (p : Process)
  | portState (st : PortState)
  | bankState (st : BankState)
  | checkResult (r : CheckResult)
  | writeRecord (w : Option (Nat × Byte))
  | activation (made : Bool)
  deriving DecidableEq, Repr

/-- The data of a REPLY, as the rule of each command gives them. READ returns fields in the order of the record's table
(R193). -/
inductive ReplyData where
  | none
  | ack (slot : Nat) (change : Byte) (report : ReportState)
  | stale (slot : Nat) (change : Byte)
  | process (state : Process)
  | enables (advisory info : Bool)
  | sect (index : Nat) (state : SectState)
  | lamp (state : LampState)
  | machine (state : MachineState)
  | ownerLock (owner : Owner) (lock : Bool)
  | crossing (state : CrossingState)
  | step (step : Step)
  | block (number : Nat)
  | planChecked (planId version declared : Nat)
  | planBad (item : PlanItem) (place : Option PlanPlace)
  | activationPending
  | activated
  | port (state : PortState)
  | freed (slots : Nat)
  | read (fields : List Field)
  deriving DecidableEq, Repr

/-- What a waiting telegram carries. A relayed telegram keeps its kind code and body (R38). -/
inductive Payload where
  | count (body : CountBody)
  | status (content : StatusContent)
  | report (content : ReportContent)
  | reply (tag : Byte) (outcome : ReplyOutcome) (data : ReplyData)
  | relayed (kind : Byte) (body : List Byte)
  deriving DecidableEq, Repr

/-- How the hops and the age of a waiting telegram are written at the start of its transmission (R38, R41). -/
inductive Origin where
  | own
  | axle (earliest : Option Time)
  | relay (hops age : Byte) (arrival : Moment)
  deriving DecidableEq, Repr

/-- A telegram waiting in a queue (R42, R44). -/
structure Waiting where
  dest    : Byte
  src     : Byte
  payload : Payload
  origin  : Origin
  deriving DecidableEq, Repr

/-- A telegram in transmission: its bytes on the line from the start byte to the CRC, and the moment its last byte ends. -/
structure Sending where
  frame : List Byte
  ends  : Moment
  deriving DecidableEq, Repr

/-- What the transmit pair of a port carries: nothing, idle fill, or the bytes of a telegram (R28, R31, R44, R47). -/
inductive LineOutput where
  | nothing
  | fill (byte : Byte)
  | telegram (frame : List Byte)
  deriving DecidableEq, Repr

/-- A port record (R27) without the queues. -/
structure PortRec where
  state        : PortState
  inverted     : Bool
  lastActivity : Time
  checkStart   : Time
  errorTimes   : List Time
  lineErrors   : Bool
  loopTimes    : List Time
  lineLoop     : Bool
  counters     : Counters
  sending      : Option Sending
  deriving DecidableEq, Repr

/-- The Line Interface (R27): the port records, the class queues of the box port, the field queue, the round credits, the
station address and the wrong-side set. -/
structure Lif where
  box       : PortRec
  field     : PortRec
  q3        : List Waiting
  q2        : List Waiting
  q1        : List Waiting
  q0        : List Waiting
  qf        : List Waiting
  credit2   : Nat
  credit1   : Nat
  credit0   : Nat
  station   : Option Byte
  wrongSide : List Byte
  deriving DecidableEq, Repr

/-- The straps and the inputs that no block's record holds (00 Connections). `fast` is RATE at 115.2 kbit/s. -/
structure Pins where
  addr       : Byte
  fast       : Bool
  panelClose : Bool
  panelOpen  : Bool
  battLow    : Bool
  mainsOff   : Bool
  deriving DecidableEq, Repr

/-- The status builder (R191): content and time of the last STATUS built. -/
structure Builder where
  last   : Option StatusContent
  lastAt : Option Time
  deriving DecidableEq, Repr

end Sys2Proof.Machine

/-- FREE VALUE. The bytes of one field of REPLY data: the spec gives the fields and their order, and not how the value of a
field is encoded (R192, R193). Log 5. -/
opaque Sys2Proof.Config.fieldBytes : Sys2Proof.Machine.Field → List Sys2Proof.Byte

namespace Sys2Proof.Machine

open Sys2Proof

/-- The state of the part. `pending` is the queue of waiting commands; `us` is how far past the present clock value the
last event fell, in microseconds; `draws` counts the free values drawn. The rest is the spec's. -/
structure State where
  pending   : List Instr
  clock     : Time
  us        : Nat
  draws     : Nat
  pins      : Pins
  store     : PlanStore
  lif       : Lif
  dps       : List DpRec
  heads     : Vector HeadRec 8
  sects     : List SectRec
  demands   : List DemandRec
  crossing  : CrossingRec
  authority : AuthorityRec
  lights    : Lights
  barrier   : Barrier
  faults    : FaultTable
  builder   : Builder
  deriving DecidableEq, Repr

/-- The faults a step can stop with: none. The spec names no condition that stops the part. -/
inductive Fault where
  deriving DecidableEq, Repr

/-- The refusals of a step. -/
inductive Refusal where
  /-- A command that has no meaning yet, by its mnemonic; raised by `exec` alone, and by no arm of it now. Safe. -/
  | notModelled (mnemonic : String)
  deriving DecidableEq, Repr

/-! ### The values START leaves, record by record -/

/-- A bank as delivered (R14). -/
def Bank.delivered : Bank := ⟨[], .empty, .none, 0, 0⟩

/-- The line counters after START (R46). -/
def Counters.zero : Counters := ⟨0, 0, 0, 0, 0, 0, 0, 0, 0, 0, 0, 0, 0, 0, 0, 0⟩

/-- A port record after START (R27); the two times are DESIGN CHOICE 8, and that no telegram is in transmission is DESIGN
CHOICE 38. -/
def PortRec.start : PortRec := ⟨.down, false, 0, 0, [], false, [], false, Counters.zero, none⟩

/-- A head channel after START, its input at the level given, timed by the head Pmax given (R66). -/
def ChannelRec.start (limit : Nat) (level : Bool) : ChannelRec :=
  ⟨level, if level then some ⟨0, 0⟩ else none, limit, none, none⟩

/-- A head record after START, its channels at the levels given (R66); the last emission is DESIGN CHOICE 8. -/
def HeadRec.start (limit : Nat) (a b : Bool) : HeadRec :=
  ⟨false, .none, 0, 0, [], ChannelRec.start limit a, ChannelRec.start limit b, 255, true, none, 0, .ok, false⟩

/-- A lamp record after START, before the first light command (R144). -/
def Lamp.start : Lamp := ⟨.unknown, 0, 0, none, .none, false, true, false, none⟩

/-- A fault record as creation leaves it (R176). -/
def FaultRec.created (now : Time) (drainLen : Nat) (code : FaultCode) (source : FaultSource) (cls : FaultClass) : FaultRec :=
  { code := code, source := source, cls := cls, active := true, srcActive := true, report := .pending, change := 0,
    raises := 1, level := 4, drain := some (now + BitVec.ofNat 32 drainLen), latched := false, first := now, last := now,
    age := 0, resend := 0, ackBy := none }

/-- The overflow record while no raise has been lost (R177); its age runs from 0 again, DESIGN CHOICE 39. -/
def FaultRec.overflowUnused : FaultRec :=
  { code := .listFull, source := ⟨.faultTable, 0⟩, cls := .urgent, active := false, srcActive := false, report := .acked,
    change := 0, raises := 0, level := 0, drain := none, latched := false, first := 0, last := 0, age := 0, resend := 0,
    ackBy := none }

/-- The Fault Table and the report process after START, before the START raises (R184, R190). -/
def FaultTable.start (advisory info : Bool) : FaultTable :=
  { ordinary := Vector.replicate 63 none, overflow := FaultRec.overflowUnused, process := .running, window := [],
    timeouts := 0, advisory := advisory, info := info }

/-- The authority record after START with the KEY input at the level given (R130). -/
def AuthorityRec.start (key : Bool) : AuthorityRec :=
  { owner := .auto, prior := .auto, changed := 0, remoteRequest := false, testRequest := false, key := key,
    localRelease := false, step := .none, phase := .none, stepEnd := none, outcome := .none, stepTag := 0 }

/-- A lamp that NO_PLAN lights in phase A (R149). -/
def Lamp.noPlanLit : Lamp := { Lamp.start with driven := true }

/-- A machine position with no detector active, lowering under NO_PLAN since time 0 (R127, R168). -/
def MachineRec.noPlanLowering : MachineRec :=
  { state := .lowering, commanded := some .lower, drive := some .lower, cmdTime := some 0, leaveMet := false,
    leaveBy := some 5000, travelBy := some 30000, up := false, down := false, boom := false, cause := .none,
    failTime := none, lastTravel := none, tLeave := 5000, tTravel := 30000 }

/-- The START fault, raised as a momentary fault at 0 (R179, R190); T_drain is that of R26. -/
def FaultRec.startFault : FaultRec :=
  { FaultRec.created 0 10000 .start ⟨.crossing, 0⟩ .info with active := false, srcActive := false }

/-- The machine right after START of a part as delivered: both banks EMPTY (R14, R25), the crossing in NO_PLAN (R127), the
START raises in slots 0 to 3 (R190), no input active and the straps of DESIGN CHOICE 6. `startPart` computes it from the
delivered part (test_reset_is_start_of_delivered_part). -/
def State.reset : State where
  pending := []
  clock := 0
  us := 0
  draws := 0
  pins := ⟨1, false, false, false, false, false⟩
  store := ⟨Bank.delivered, Bank.delivered, .a, false, none, none⟩
  lif := { box := PortRec.start, field := PortRec.start, q3 := [], q2 := [], q1 := [], q0 := [], qf := [],
           credit2 := 4, credit1 := 2, credit0 := 1, station := some 1, wrongSide := [] }
  dps := []
  heads := Vector.replicate 8 (HeadRec.start 0 false false)
  sects := []
  demands := []
  crossing := { state := .noPlan, entered := 0, loweringStart := none, stateTimer := none, exitTimer := none,
                exitRun := false, lastDir := Vector.replicate 4 (some .lower), demandView := [], islandView := [],
                remoteClose := false, remoteOpen := false }
  authority := AuthorityRec.start false
  lights := { command := .noPlan, phase := .a, began := 0, length := 500, sampled := false,
              groups := Vector.replicate 4 ⟨Lamp.noPlanLit, Lamp.noPlanLit, Lamp.start⟩, audible := false }
  barrier := ⟨Vector.replicate 4 MachineRec.noPlanLowering, ⟨false, false, none, none, false⟩⟩
  faults := { FaultTable.start true true with
    ordinary := (((Vector.replicate 63 none).set 0 (some FaultRec.startFault)).set 1
      (some (FaultRec.created 0 10000 .portDown ⟨.port, 0⟩ .urgent))).set 2
      (some (FaultRec.created 0 10000 .portDown ⟨.port, 1⟩ .urgent)) |>.set 3
      (some (FaultRec.created 0 10000 .crossingNoPlan ⟨.crossing, 0⟩ .safety)) }
  builder := ⟨none, none⟩

end Sys2Proof.Machine
end

