-- ==== Sys2Proof/Machine/Ops.lean ====
section
/-! DEFINITION. The named operations over time, counters, bank memory and the records that every block shares: the crossing
clock's comparison, saturating and wrapping counters, the addressed store of a bank, the plan parameters in force, and the
updates of one record in a list. -/

namespace Sys2Proof.Machine

open Sys2Proof

/-! ### The crossing clock (R1) -/

/-- The clock value `d` ms after `t`; it wraps (R1). -/
def after (t : Time) (d : Nat) : Time := t + BitVec.ofNat 32 d

/-- The clock value `d` ms before `t`; it wraps (R1). -/
def before (t : Time) (d : Nat) : Time := t - BitVec.ofNat 32 d

/-- The signed difference of two times (R1). -/
def since (a b : Time) : Int := (a - b).toInt

/-- Time `a` is later than time `b` (R1). -/
def later (a b : Time) : Bool := decide (0 < since a b)

/-- The clock has reached a deadline. -/
def reached (deadline now : Time) : Bool := !later deadline now

/-- An optional deadline that is set and has been reached. -/
def due (deadline : Option Time) (now : Time) : Bool :=
  match deadline with
  | none => false
  | some d => reached d now

/-- Microseconds from one moment to a later one; 0 when it is not later (R38, R67). -/
def microsFrom (a b : Moment) : Nat := (since b.ms a.ms * 1000 + ((b.us : Int) - (a.us : Int))).toNat

/-- Whole milliseconds, rounded up, of a count of microseconds (R38). -/
def ceilMs (us : Nat) : Nat := (us + 999) / 1000

/-- One moment comes before another. -/
def momentBefore (a b : Moment) : Bool := decide (a.ms = b.ms ∧ a.us < b.us) || later b.ms a.ms

/-- The moment `us` microseconds after a moment. -/
def plusMicros (m : Moment) (us : Nat) : Moment := ⟨after m.ms ((m.us + us) / 1000), (m.us + us) % 1000⟩

/-- The moment of the present event. -/
def State.moment (s : State) : Moment := ⟨s.clock, s.us⟩

/-- The state at an event that falls `us` microseconds past the present clock value (log 9). -/
def State.atMicros (s : State) (us : Nat) : State := { s with us := max s.us us }

/-- The waiting commands that fall at the present clock value: all before a START, which sets the clock to 0; what waits
behind one is taken after it, in another moment (R1, R4; logs 1, 33). -/
def State.sameMoment (s : State) : List Instr := s.pending.takeWhile fun c => decide (c ≠ .start)

/-! ### Counters (R2) -/

/-- A saturating sum (R2). -/
def satAdd (limit n d : Nat) : Nat := min limit (n + d)

/-- One up on a counter that saturates at 65535. -/
def up16 (n : Nat) : Nat := satAdd 65535 n 1

/-- The distance from an old to a new value of a counter that wraps at `m` (R58, R59). -/
def wrapDelta (m new old : Nat) : Nat := (new + (m - old % m)) % m

/-- Ceiling division (00 Conventions). -/
def ceilDiv (a b : Nat) : Nat := (a + b - 1) / b

/-! ### The addressed store of a bank (R14) -/

/-- Bytes of a bank (R14). -/
def Memory.size : Nat := 4096

/-- The byte at an address. -/
def Memory.read : Memory → Nat → Byte
  | [], _ => Memory.blank
  | c :: m, a => if c.1 = a then c.2 else Memory.read m a

/-- The canonical form: addresses strictly rising from `low` and inside the bank, no blank entry. -/
def Memory.wfFrom (low : Nat) : Memory → Bool
  | [] => true
  | c :: m => decide (low ≤ c.1 ∧ c.1 < Memory.size ∧ c.2 ≠ Memory.blank) && Memory.wfFrom (c.1 + 1) m

/-- The canonical form of a bank's contents. -/
def Memory.wf (m : Memory) : Bool := Memory.wfFrom 0 m

/-- An entry put before `m`, left out when it is blank. -/
def Memory.entry (a : Nat) (b : Byte) (m : Memory) : Memory := if b = Memory.blank then m else (a, b) :: m

/-- One byte written; the canonical form is kept. -/
def Memory.write : Memory → Nat → Byte → Memory
  | [], a, b => Memory.entry a b []
  | c :: m, a, b =>
    if a < c.1 then Memory.entry a b (c :: m)
    else if a = c.1 then Memory.entry a b m
    else c :: Memory.write m a b

/-- Successive bytes written from an address on. -/
def Memory.writeFrom (m : Memory) (a : Nat) : List Byte → Memory
  | [] => m
  | b :: bs => Memory.writeFrom (Memory.write m a b) (a + 1) bs

/-- The 64 bytes of block `k` replaced (R16). -/
def Memory.writeBlock (m : Memory) (k : Nat) (data : List Byte) : Memory := Memory.writeFrom m (64 * k) data

/-- `n` bytes from an address on, of contents that list nothing below it. -/
def Memory.dense : Memory → Nat → Nat → List Byte
  | _, _, 0 => []
  | [], a, n + 1 => Memory.blank :: Memory.dense [] (a + 1) n
  | c :: m, a, n + 1 =>
    if c.1 = a then c.2 :: Memory.dense m (a + 1) n else Memory.blank :: Memory.dense (c :: m) (a + 1) n

/-! ### The plan in force and its parameters (R6, R26) -/

/-- A parameter of the plan in force, or the value it has without a plan (R26). -/
def State.par (s : State) {α : Type} (without : α) (f : Plan → α) : α :=
  match s.store.plan with
  | none => without
  | some p => f p

/-- T_drain in force (R6, R26). -/
def State.tDrain (s : State) : Nat := s.par 10000 Plan.tDrain

/-- The flash half-period in force (R6, R26). -/
def State.flashHalf (s : State) : Nat := s.par 500 Plan.flashHalf

/-- The DP entries of the plan in force (R26). -/
def State.dpTable (s : State) : List DpEntry := s.par [] Plan.dps

/-- The section entries of the plan in force (R26). -/
def State.sectTable (s : State) : List SectionEntry := s.par [] Plan.sects

/-- The approach entries of the plan in force (R26). -/
def State.approachTable (s : State) : List ApproachEntry := s.par [] Plan.approaches

/-- A light group is present (R5, R26). -/
def State.groupPresent (s : State) (g : Fin 4) : Bool := s.par false (fun p => p.groups[g].present)

/-- A machine position is present (R5, R26). -/
def State.machinePresent (s : State) (i : Fin 4) : Bool := s.par false (fun p => p.machines[i].present)

/-! ### One record of a list -/

/-- The record at an index changed; out of range, the list as it is. -/
def modifyAt {α : Type} : List α → Nat → (α → α) → List α
  | [], _, _ => []
  | x :: xs, 0, f => f x :: xs
  | x :: xs, n + 1, f => x :: modifyAt xs n f

/-- Each record with its index. -/
def indexed {α : Type} (n : Nat) : List α → List (Nat × α)
  | [] => []
  | x :: xs => (n, x) :: indexed (n + 1) xs

/-- The index of the first record that satisfies a test. -/
def indexWhere {α : Type} (test : α → Bool) (n : Nat) : List α → Option Nat
  | [] => none
  | x :: xs => if test x then some n else indexWhere test (n + 1) xs

/-- Two lists combined record by record. -/
def zipWithList {α β γ : Type} (f : α → β → γ) : List α → List β → List γ
  | x :: xs, y :: ys => f x y :: zipWithList f xs ys
  | _, _ => []

/-- A list kept to `n` entries by removing the oldest before a new one enters. -/
def pushOldest {α : Type} (n : Nat) (l : List α) (x : α) : List α :=
  (if n ≤ l.length then l.drop 1 else l) ++ [x]

end Sys2Proof.Machine
end

