-- ==== Sys2Proof/Machine/Faults.lean ====
section
/-! DEFINITION. The Fault Table: raising, clearing, momentary raises, creation and recycling, the overflow record, the
chatter limiter, acknowledgement and the report process (R172 to R190). Slot 63 is the overflow record. -/

namespace Sys2Proof.Machine

open Sys2Proof

/-! ### One record -/

/-- A change of a record (R172). -/
def FaultRec.changed (now : Time) (r : FaultRec) : FaultRec :=
  { r with change := r.change + 1, last := now, age := 0, resend := 0, report := .pending, ackBy := none }

/-- The chatter level after a raise (R180). -/
def FaultRec.levelUp (now : Time) (drainLen : Nat) (r : FaultRec) : FaultRec :=
  { r with level := satAdd 15 r.level 4, drain := if r.level = 0 then some (after now drainLen) else r.drain }

/-- A raise of an existing record (R175, R181). -/
def FaultRec.raised (now : Time) (drainLen : Nat) (cls : FaultClass) (r : FaultRec) : FaultRec :=
  let u := { r.levelUp now drainLen with raises := up16 r.raises, srcActive := true, cls := cls }
  if r.latched then u
  else if 12 < u.level then FaultRec.changed now { u with latched := true, active := true }
  else FaultRec.changed now { u with active := true }

/-- A clear of a record (R178, R181). -/
def FaultRec.cleared (now : Time) (r : FaultRec) : FaultRec :=
  let u := { r with srcActive := false }
  if r.latched then u else if r.active then FaultRec.changed now { u with active := false } else u

/-- A momentary raise of an existing record: a raise and a clear that are one change, the clear held under a latch (R179). -/
def FaultRec.momentary (now : Time) (drainLen : Nat) (cls : FaultClass) (r : FaultRec) : FaultRec :=
  let u := r.raised now drainLen cls
  { u with srcActive := false, active := u.latched }

/-- The release of a latched record at level 0 that is ACKED (R182). -/
def FaultRec.release (now : Time) (r : FaultRec) : FaultRec :=
  if r.latched ∧ r.level = 0 ∧ r.report = .acked then FaultRec.changed now { r with latched := false, active := r.srcActive }
  else r

/-- A drain deadline: the level falls by one, and a release may follow (R180, R182). -/
def FaultRec.drained (now : Time) (drainLen : Nat) (r : FaultRec) : FaultRec :=
  FaultRec.release now
    { r with level := r.level - 1, drain := if 1 < r.level then some (after now drainLen) else none }

/-- A return from SENT to PENDING with the same change number (R187, R188). -/
def FaultRec.returned (r : FaultRec) : FaultRec :=
  { r with report := .pending, ackBy := none, resend := satAdd 255 r.resend 1 }

/-- A record that can be recycled or freed: ACKED and INACTIVE (R176, R189). -/
def FaultRec.spent (r : FaultRec) : Bool := decide (r.report = .acked) && !r.active

/-- One millisecond more of age (R172). -/
def FaultRec.older (r : FaultRec) : FaultRec := { r with age := satAdd 2147483647 r.age 1 }

/-! ### Slots -/

/-- The record in a slot (R172). -/
def FaultTable.get (t : FaultTable) (n : Nat) : Option FaultRec :=
  if h : n < 63 then t.ordinary[n] else if n = 63 then some t.overflow else none

/-- A record put in a slot; it leaves the window unless it is SENT there (R172). -/
def FaultTable.put (t : FaultTable) (n : Nat) (r : FaultRec) : FaultTable :=
  let w := if r.report = .sent then t.window else t.window.filter (fun m => decide (m ≠ n))
  if h : n < 63 then { t with ordinary := t.ordinary.set n (some r), window := w }
  else if n = 63 then { t with overflow := r, window := w }
  else t

/-- The record in a slot changed; a free slot stays free. -/
def FaultTable.update (t : FaultTable) (n : Nat) (f : FaultRec → FaultRec) : FaultTable :=
  match t.get n with
  | none => t
  | some r => t.put n (f r)

/-- The slot holds the record of a pair (R173). -/
def FaultTable.holds (t : FaultTable) (code : FaultCode) (source : FaultSource) (i : Fin 63) : Bool :=
  match t.ordinary[i] with
  | none => false
  | some r => decide (r.code = code ∧ r.source = source)

/-- The slot of the record of a pair (R173). -/
def FaultTable.find (t : FaultTable) (code : FaultCode) (source : FaultSource) : Option (Fin 63) :=
  (List.finRange 63).find? (t.holds code source)

/-- The lowest free ordinary slot (R176). -/
def FaultTable.freeSlot (t : FaultTable) : Option (Fin 63) :=
  (List.finRange 63).find? fun i => decide (t.ordinary[i] = none)

/-- The better slot to recycle of a best one so far and the next: the greater age, then the lower slot (R176). -/
def FaultTable.older (t : FaultTable) (best : Option (Fin 63 × Nat)) (i : Fin 63) : Option (Fin 63 × Nat) :=
  match t.ordinary[i] with
  | none => best
  | some r =>
    if r.spent then
      match best with
      | none => some (i, r.age)
      | some (_, a) => if a < r.age then some (i, r.age) else best
    else best

/-- The slot to recycle (R176). -/
def FaultTable.recyclable (t : FaultTable) : Option (Fin 63) :=
  ((List.finRange 63).foldl t.older none).map (·.1)

/-- A raise that finds no slot is a raise of LIST_FULL (R177). -/
def FaultTable.lose (t : FaultTable) (now : Time) (drainLen : Nat) : FaultTable :=
  t.update 63 fun r => FaultRec.raised now drainLen .urgent { r with first := if r.raises = 0 then now else r.first }

/-- The slot a raise of a new pair takes: the lowest free one, else the one to recycle (R176). -/
def FaultTable.slotForNew (t : FaultTable) : Option (Fin 63) := t.freeSlot.or t.recyclable

/-- A raise: of the record of the pair, or a creation, or a lost raise (R173, R175, R176, R177). -/
def FaultTable.raise (t : FaultTable) (now : Time) (drainLen : Nat) (code : FaultCode) (source : FaultSource)
    (cls : FaultClass) : FaultTable :=
  match t.find code source with
  | some i => t.update i.val (FaultRec.raised now drainLen cls)
  | none =>
    match t.slotForNew with
    | some i => t.put i.val (FaultRec.created now drainLen code source cls)
    | none => t.lose now drainLen

/-- A momentary raise (R179). -/
def FaultTable.moment (t : FaultTable) (now : Time) (drainLen : Nat) (code : FaultCode) (source : FaultSource)
    (cls : FaultClass) : FaultTable :=
  match t.find code source with
  | some i => t.update i.val (FaultRec.momentary now drainLen cls)
  | none =>
    match t.slotForNew with
    | some i =>
      t.put i.val { FaultRec.created now drainLen code source cls with active := false, srcActive := false }
    | none => t.lose now drainLen

/-- A clear of a pair (R173, R178). -/
def FaultTable.clear (t : FaultTable) (now : Time) (code : FaultCode) (source : FaultSource) : FaultTable :=
  match t.find code source with
  | some i => t.update i.val (FaultRec.cleared now)
  | none => t

/-- An ordinary slot is free or holds a spent record (R177). -/
def FaultTable.hasRoom (t : FaultTable) : Bool := t.slotForNew.isSome

/-- The overflow record cleared at the first event after which a slot can be had (R177). -/
def FaultTable.checkOverflow (t : FaultTable) (now : Time) : FaultTable :=
  if t.overflow.srcActive ∧ t.hasRoom then t.update 63 (FaultRec.cleared now) else t

/-! ### The report process (R184 to R189) -/

/-- Reports of a class are enabled (R183). -/
def FaultTable.enabled (t : FaultTable) (cls : FaultClass) : Bool :=
  match cls with
  | .safety => true
  | .urgent => true
  | .advisory => t.advisory
  | .info => t.info

/-- The pending set of a class, lowest slot first (R183). -/
def FaultTable.pendingSet (t : FaultTable) (cls : FaultClass) : List Nat :=
  (List.range 64).filter fun n =>
    match t.get n with
    | none => false
    | some r => decide (r.report = .pending ∧ r.cls = cls)

/-- The classes, most serious first (R174). -/
def FaultClass.served : List FaultClass := [.safety, .urgent, .advisory, .info]

/-- The slot to take next: the highest enabled class, then the lowest slot (R185). -/
def FaultTable.nextSlot (t : FaultTable) : Option Nat :=
  ((FaultClass.served.filter t.enabled).flatMap t.pendingSet).head?

/-- A record taken for sending (R185). -/
def FaultTable.take (t : FaultTable) (now : Time) (n : Nat) : FaultTable :=
  let t := t.update n fun r => { r with report := .sent, ackBy := some (after now 5000) }
  { t with window := t.window ++ [n] }

/-- The record of a slot returned from SENT to PENDING (R187, R188). -/
def FaultTable.return (t : FaultTable) (n : Nat) : FaultTable := t.update n FaultRec.returned

/-- Every record of the window returned to PENDING (R188). -/
def FaultTable.returnAll (t : FaultTable) : FaultTable := t.window.foldl FaultTable.return t

/-- Entry to SUSPENDED or STOPPED (R188). -/
def FaultTable.hold (t : FaultTable) (p : Process) : FaultTable := { t.returnAll with process := p }

/-- Entry to RUNNING (R188). -/
def FaultTable.resume (t : FaultTable) : FaultTable := { t with process := .running, timeouts := 0 }

/-- The box port enters DOWN (R188). -/
def FaultTable.boxDown (t : FaultTable) : FaultTable :=
  { t.returnAll with process := if t.process = .running then .suspended else t.process }

/-- A REPORT removed from class 2: its record returns when it is still SENT with that change number (R188). -/
def FaultTable.reportRemoved (t : FaultTable) (n : Nat) (change : Byte) : FaultTable :=
  t.update n fun r => if r.report = .sent ∧ r.change = change then r.returned else r

/-- The box has been heard (R37, R188). -/
def FaultTable.boxHeard (t : FaultTable) : FaultTable := if t.process = .suspended then t.resume else t

/-- An ack deadline (R187). -/
def FaultTable.ackTimeout (t : FaultTable) (n : Nat) : FaultTable :=
  let t := { t.return n with timeouts := t.timeouts + 1 }
  if 3 ≤ t.timeouts then t.hold .suspended else t

/-- An acknowledgement that makes a record ACKED (R186). -/
def FaultTable.acknowledge (t : FaultTable) (now : Time) (n : Nat) : FaultTable :=
  let t := t.update n fun r => FaultRec.release now { r with report := .acked, ackBy := none }
  FaultTable.checkOverflow { t with timeouts := 0 } now

/-- The ordinary slots that CLEAR ACKED frees (R189). -/
def FaultTable.spentSlots (t : FaultTable) : List (Fin 63) :=
  (List.finRange 63).filter fun i =>
    match t.ordinary[i] with
    | none => false
    | some r => r.spent

/-- CLEAR ACKED (R189, R177). -/
def FaultTable.clearAcked (t : FaultTable) (now : Time) : FaultTable :=
  let t' :=
    { t with
      ordinary := Vector.ofFn fun i =>
        match t.ordinary[i] with
        | none => none
        | some r => if r.spent then none else some r
      overflow := if t.overflow.spent then FaultRec.overflowUnused else t.overflow }
  FaultTable.checkOverflow t' now

/-- Every record a millisecond older (R172). -/
def FaultTable.tick (t : FaultTable) : FaultTable :=
  { t with ordinary := Vector.ofFn fun i => (t.ordinary[i]).map FaultRec.older, overflow := t.overflow.older }

/-! ### Raises and clears by the blocks -/

/-- What a block reports of one code. -/
inductive FaultAct where
  | raise (code : FaultCode) (source : FaultSource) (cls : FaultClass)
  | moment (code : FaultCode) (source : FaultSource) (cls : FaultClass)
  | clear (code : FaultCode) (source : FaultSource)
  deriving DecidableEq, Repr

/-- One report of a block taken by the Fault Table. -/
def FaultTable.act (now : Time) (drainLen : Nat) (t : FaultTable) : FaultAct → FaultTable
  | .raise code source cls => t.raise now drainLen code source cls
  | .moment code source cls => t.moment now drainLen code source cls
  | .clear code source => t.clear now code source

/-- Reports of a block taken in their order. -/
def State.report (s : State) (acts : List FaultAct) : State :=
  { s with faults := acts.foldl (FaultTable.act s.clock s.tDrain) s.faults }

/-- A raise (R175, R176). -/
def State.raise (s : State) (code : FaultCode) (source : FaultSource) (cls : FaultClass) : State :=
  s.report [.raise code source cls]

/-- A momentary raise (R179). -/
def State.momentary (s : State) (code : FaultCode) (source : FaultSource) (cls : FaultClass) : State :=
  s.report [.moment code source cls]

/-- A clear (R178). -/
def State.clear (s : State) (code : FaultCode) (source : FaultSource) : State := s.report [.clear code source]

/-- The source of a fault of the crossing. -/
def theCrossing : FaultSource := ⟨.crossing, 0⟩

/-- The source of a fault of a port (R50). -/
def portSource : Port → FaultSource
  | .box => ⟨.port, 0⟩
  | .field => ⟨.port, 1⟩

end Sys2Proof.Machine
end

