-- ==== Sys2Proof/Machine/Barrier.lean ====
section
/-! DEFINITION. The Barrier Drive Unit: the machine record under commands, detector changes and limits, and the zone record
(R157 to R171). What the Sequence Controller does with a machine's change stands with the crossing sequence. -/

namespace Sys2Proof.Machine

open Sys2Proof

/-! ### One machine -/

/-- The other direction. -/
def Dir.other : Dir → Dir
  | .lower => .raise
  | .raise => .lower

/-- The state of a machine moving in a direction (R157). -/
def Dir.moving : Dir → MachineState
  | .lower => .lowering
  | .raise => .raising

/-- The state of a machine proved at the end of a direction (R157). -/
def Dir.proved : Dir → MachineState
  | .lower => .downProved
  | .raise => .upProved

/-- The detector at the end a direction moves toward (R161). -/
def MachineRec.target (d : Dir) (r : MachineRec) : Bool :=
  match d with
  | .lower => r.down
  | .raise => r.up

/-- The machine has left its start: that detector is inactive and BOOM active (R160). -/
def MachineRec.hasLeft (d : Dir) (r : MachineRec) : Bool := !r.target d.other && r.boom

/-- Proof at the target: the drive goes off (R161). -/
def MachineRec.prove (now : Time) (d : Dir) (r : MachineRec) : MachineRec :=
  { r with state := d.proved, drive := none, leaveBy := none, travelBy := none,
           lastTravel := r.cmdTime.map fun t => (now - t).toNat }

/-- A movement started, by a command, a reversal or a re-drive: the drive on, both limits running (R159, R160, R161); proved
at once on a detector already active (R162). -/
def MachineRec.start (now : Time) (d : Dir) (r : MachineRec) : MachineRec :=
  let left := r.hasLeft d
  let m := { r with state := d.moving, commanded := some d, drive := some d, cmdTime := some now, leaveMet := left,
                    leaveBy := if left then none else some (after now r.tLeave),
                    travelBy := some (after now r.tTravel) }
  if m.target d then m.prove now d else m

/-- A machine command (R159, R162). -/
def MachineRec.command (now : Time) (d : Dir) (r : MachineRec) : MachineRec :=
  if r.state = .failed then r
  else if r.state = d.proved then { r with commanded := some d }
  else if r.state = d.moving then r
  else r.start now d

/-- Entry to FAILED (R165). The raise is the crossing's to class. -/
def MachineRec.fail (now : Time) (cause : MachineCause) (r : MachineRec) : MachineRec :=
  { r with state := .failed, drive := none, cause := cause, failTime := some now, commanded := none, leaveBy := none,
           travelBy := none, leaveMet := false }

/-- The state a machine at rest shows by its end detectors (R158, R163). -/
def restState (up down : Bool) : MachineState :=
  match up, down with
  | true, false => .upProved
  | false, true => .downProved
  | _, _ => .halted

/-- The state taken from the detectors, the first two rows applied when `checks` (R158); leave met becomes no and the three
times stay (log 43). -/
def MachineRec.fromDetectors (now : Time) (checks : Bool) (r : MachineRec) : MachineRec :=
  let m := { r with drive := none, commanded := none, leaveBy := none, travelBy := none, leaveMet := false,
                    cause := .none, state := restState r.up r.down }
  if checks && !r.boom then m.fail now .boomLost
  else if checks && r.up && r.down then m.fail now .detectorConflict
  else m

/-- A position that is not supervised: drives off, HALTED, no cause (R168); no direction, leave met no, the three times as
they were (log 43). -/
def MachineRec.unsupervised (r : MachineRec) : MachineRec :=
  { r with state := .halted, drive := none, commanded := none, leaveBy := none, travelBy := none, leaveMet := false,
           cause := .none }

/-- A machine moving in `d` after a detector change: leave met, then the target (R160, R161). -/
def MachineRec.travelled (now : Time) (d : Dir) (r : MachineRec) : MachineRec :=
  let m := if r.hasLeft d then { r with leaveMet := true, leaveBy := none } else r
  if m.target d then m.prove now d else m

/-- A machine proved at the end of `d` after a detector change: moved off that end, it is driven back or becomes HALTED and
follows its detectors (R163); without a plan the drive back does not ask for BOOM (log 19). -/
def MachineRec.rested (now : Time) (d : Dir) (r : MachineRec) : MachineRec :=
  if r.target d then r
  else if r.commanded = some d then r.start now d
  else { r with state := restState r.up r.down }

/-- A detector change of a supervised machine (R160, R161, R163, R164); `checks` are the two faults of R164. -/
def MachineRec.detectors (now : Time) (checks : Bool) (up down boom : Bool) (r : MachineRec) : MachineRec :=
  let m := { r with up := up, down := down, boom := boom }
  if r.state = .failed then m
  else if checks && r.boom && !boom then m.fail now .boomLost
  else if checks && up && down && !(r.up && r.down) then m.fail now .detectorConflict
  else
    match r.state with
    | .lowering => m.travelled now .lower
    | .raising => m.travelled now .raise
    | .upProved => m.rested now .raise
    | .downProved => m.rested now .lower
    | .halted => { m with state := restState up down }
    | .failed => m

/-- Levels alone, for a position that is not supervised (R168). -/
def MachineRec.levels (up down boom : Bool) (r : MachineRec) : MachineRec := { r with up := up, down := down, boom := boom }

/-- The machine moves. -/
def MachineRec.isMoving (r : MachineRec) : Bool := decide (r.state = .lowering) || decide (r.state = .raising)

/-- The leave deadline has been reached (R160). -/
def MachineRec.leaveDue (now : Time) (r : MachineRec) : Bool := r.isMoving && !r.leaveMet && due r.leaveBy now

/-- The travel deadline has been reached (R161). -/
def MachineRec.travelDue (now : Time) (r : MachineRec) : Bool := r.isMoving && due r.travelBy now

/-! ### The machines in the state -/

/-- A machine record replaced. -/
def State.setMachine (s : State) (i : Fin 4) (r : MachineRec) : State :=
  { s with barrier := { s.barrier with machines := s.barrier.machines.set i r } }

/-- The zone record replaced. -/
def State.setZone (s : State) (z : ZoneRec) : State := { s with barrier := { s.barrier with zone := z } }

/-- The detector faults and limits of a position are supervised: it is present, or no bank is ACTIVE (R168). -/
def State.supervised (s : State) (i : Fin 4) : Bool := s.par true (fun p => p.machines[i].present)

/-- MACHINE_FAILED, with the class of the crossing state (R165). -/
def State.raiseMachineFailed (s : State) (i : Fin 4) : State :=
  s.raise .machineFailed ⟨.machine, i.val⟩ (if s.crossing.state = .opened then .urgent else .safety)

/-- The record of a machine replaced; entering FAILED raises MACHINE_FAILED and takes its last direction away
(R165, R112). -/
def State.putMachine (s : State) (i : Fin 4) (r : MachineRec) : State :=
  let s' := s.setMachine i r
  if r.state = .failed ∧ s.barrier.machines[i].state ≠ .failed then
    State.raiseMachineFailed { s' with crossing := { s'.crossing with lastDir := s'.crossing.lastDir.set i none } } i
  else s'

/-- A machine command handed to a position and entered as its last direction sent; a FAILED machine is sent none
(R112, R159). -/
def State.sendMachine (s : State) (i : Fin 4) (d : Dir) : State :=
  let r := s.barrier.machines[i]
  if r.state = .failed then s
  else
    { s.setMachine i (r.command s.clock d) with
      crossing := { s.crossing with lastDir := s.crossing.lastDir.set i (some d) } }

/-! ### The exit hold (R171) -/

/-- Word that exit lowering is waiting on the zone (R171). -/
def State.beginWait (s : State) : State :=
  let z := s.barrier.zone
  if z.waiting then s
  else s.setZone { z with waiting := true, holdStart := some s.clock,
                          holdBy := some (after s.clock (s.par 0 Plan.tZone)) }

/-- Word that the wait has ended (R171). -/
def State.endWait (s : State) : State :=
  let z := s.barrier.zone
  if z.waiting then
    let s' := s.setZone { z with waiting := false, holdStart := none, holdBy := none, condition := false }
    if z.condition then s'.clear .zoneHold ⟨.zone, 0⟩ else s'
  else s

/-- HOLD_DEADLINE (R171). -/
def opHoldDeadline (s : State) : State :=
  let z := s.barrier.zone
  if z.waiting && due z.holdBy s.clock then
    (s.setZone { z with holdBy := none, condition := true }).raise .zoneHold ⟨.zone, 0⟩ .urgent
  else s

end Sys2Proof.Machine
end

