-- ==== Sys2Proof/Machine/Lights.lean ====
section
/-! DEFINITION. The Light Driver: light commands, the flash generator, proving by current, cut-off, the look for current on
dark lamps, reset, plan changes and the audible command (R144 to R156). -/

namespace Sys2Proof.Machine

open Sys2Proof

/-! ### Lamps and groups -/

/-- One lamp of a group. -/
def LightGroup.lamp (g : LightGroup) : LampKind → Lamp
  | .amber => g.amber
  | .redA => g.redA
  | .redB => g.redB

/-- Each lamp of a group changed. -/
def LightGroup.mapLamps (f : LampKind → Lamp → Lamp) (g : LightGroup) : LightGroup :=
  ⟨f .amber g.amber, f .redA g.redA, f .redB g.redB⟩

/-- Each light group of the driver changed. -/
def Lights.mapGroups (f : Fin 4 → LightGroup → LightGroup) (l : Lights) : Lights :=
  { l with groups := Vector.ofFn fun g => f g l.groups[g] }

/-- The place of a lamp in its group: 0 amber, 1 red A, 2 red B (R144). -/
def LampKind.place : LampKind → Nat
  | .amber => 0
  | .redA => 1
  | .redB => 2

/-- The lamps of a group in their order. -/
def LampKind.inOrder : List LampKind := [.amber, .redA, .redB]

/-- The number of a lamp: 3 × group + lamp (R144). -/
def lampIndex (g : Fin 4) (k : LampKind) : Nat := 3 * g.val + k.place

/-- The group and place of a lamp number (R144). -/
def lampOf (n : Nat) : Option (Fin 4 × LampKind) :=
  if h : n / 3 < 4 then some (⟨n / 3, h⟩, if n % 3 = 0 then .amber else if n % 3 = 1 then .redA else .redB) else none

/-- The limits of a lamp in its group entry (R11). -/
def limitsOf (e : GroupEntry) : LampKind → LampLimits
  | .amber => e.amber
  | .redA => e.redA
  | .redB => e.redB

/-- A lamp failed, open or short (R145). -/
def Lamp.isFailed (l : Lamp) : Bool := decide (l.state = .failedOpen) || decide (l.state = .failedShort)

/-- The state of a group from its two reds (R145). -/
def LightGroup.state (g : LightGroup) : GroupState :=
  if g.redA.isFailed && g.redB.isFailed then .failed
  else if g.redA.isFailed || g.redB.isFailed then .degraded
  else if g.redA.state = .proven ∧ g.redB.state = .proven then .proven
  else .unknown

/-- One of a group's reds is PROVEN (R128). -/
def LightGroup.redProven (g : LightGroup) : Bool :=
  decide (g.redA.state = .proven) || decide (g.redB.state = .proven)

/-! ### Driving (R146 to R149) -/

/-- A light command lights a lamp in a phase, its group being present or not (R146, R148, R149). -/
def lights (c : LightCommand) (p : Phase) (present : Bool) (k : LampKind) : Bool :=
  match c, k with
  | .dark, _ => false
  | .amber, .amber => present
  | .amber, _ => false
  | .flash, .amber => false
  | .flash, .redA => present && decide (p = .a)
  | .flash, .redB => present && decide (p = .b)
  | .amberFlash, .amber => present
  | .amberFlash, .redA => present && decide (p = .a)
  | .amberFlash, .redB => present && decide (p = .b)
  | .noPlan, .amber => decide (p = .a)
  | .noPlan, .redA => decide (p = .a)
  | .noPlan, .redB => decide (p = .b)

/-- Every output set as the command, the phase and the enables have it (R146, R148, R152). -/
def Lights.driveAll (present : Fin 4 → Bool) (l : Lights) : Lights :=
  l.mapGroups fun g => LightGroup.mapLamps fun k lamp =>
    { lamp with driven := lights l.command l.phase (present g) k && lamp.enabled }

/-- A half-period of a phase begun now (R147). -/
def Lights.beginHalf (now : Time) (len : Nat) (p : Phase) (present : Fin 4 → Bool) (l : Lights) : Lights :=
  { l with phase := p, began := now, length := len, sampled := false }.driveAll present

/-- The other phase. -/
def Phase.other : Phase → Phase
  | .a => .b
  | .b => .a

/-- A light command handed to the driver; one equal to the command in force changes nothing (R146, R147). -/
def Lights.handed (now : Time) (len : Nat) (present : Fin 4 → Bool) (c : LightCommand) (l : Lights) : Lights :=
  if l.command = c then l else { l with command := c }.beginHalf now len .a present

/-- A light command from the Sequence Controller or the Authority Arbiter (R146). -/
def State.lightCommand (s : State) (c : LightCommand) : State :=
  { s with lights := s.lights.handed s.clock s.flashHalf s.groupPresent c }

/-- The audible command (R156). -/
def State.audibleCommand (s : State) (on : Bool) : State := { s with lights := { s.lights with audible := on } }

/-- The AUDIBLE output (R156). -/
def State.audibleOutput (s : State) : Bool := s.lights.audible && s.par false Plan.audibleFitted

/-! ### Proving by current (R150 to R153) -/

/-- How a sample is judged (R150). -/
def judge (lim : LampLimits) (ma : Nat) : SampleKind :=
  if ma < lim.imin then .low else if lim.imax < ma then .high else .good

/-- The state of a lamp after a sample (R151). -/
def Lamp.judged (l : Lamp) : LampState :=
  match l.state with
  | .unknown =>
    if 1 ≤ l.good then .proven
    else if 2 ≤ l.bad ∧ l.kind = .low then .failedOpen
    else if 2 ≤ l.bad ∧ l.kind = .high then .failedShort
    else .unknown
  | .proven =>
    if 2 ≤ l.bad ∧ l.kind = .low then .failedOpen
    else if 2 ≤ l.bad ∧ l.kind = .high then .failedShort
    else .proven
  | .failedOpen =>
    if 2 ≤ l.bad ∧ l.kind = .high then .failedShort
    else if 3 ≤ l.good then .proven
    else .failedOpen
  | .failedShort => .failedShort

/-- A proving sample: the reading, the counts and the new state, with the cut-off of a short (R150, R151, R152). -/
def Lamp.sampledLit (lim : LampLimits) (ma : Nat) (l : Lamp) : Lamp :=
  let k := judge lim ma
  let u :=
    if k = .good then { l with last := some ma, kind := k, good := satAdd 255 l.good 1, bad := 0 }
    else { l with last := some ma, kind := k, bad := satAdd 255 l.bad 1, good := 0 }
  let st := u.judged
  if st = .failedShort then { u with state := st, driven := false, enabled := false } else { u with state := st }

/-- A sample of a lamp that is not driven (R153). -/
def Lamp.sampledDark (ma : Nat) (l : Lamp) : Lamp := { l with dark := some ma, lit := decide (50 < ma) }

/-- The sample point of a lamp: proved when driven, looked at for current when dark (R150, R153). -/
def Lamp.sample (lim : LampLimits) (ma : Nat) (l : Lamp) : Lamp :=
  if l.driven then l.sampledLit lim ma else l.sampledDark ma

/-- What a lamp's change is reported as (R151, R152, R153). -/
def lampActs (n : Nat) (old new : Lamp) : List FaultAct :=
  let src : FaultSource := ⟨.lamp, n⟩
  (if old.state = .failedOpen ∧ new.state ≠ .failedOpen then [.clear .lampFailed src] else []) ++
  (if old.state ≠ .failedOpen ∧ new.state = .failedOpen then [.raise .lampFailed src .advisory] else []) ++
  (if old.state = .failedShort ∧ new.state ≠ .failedShort then [.clear .lampShort src] else []) ++
  (if old.state ≠ .failedShort ∧ new.state = .failedShort then [.raise .lampShort src .advisory] else []) ++
  (if !old.lit && new.lit then [.raise .lampLitWhenDark src .urgent] else []) ++
  (if old.lit && !new.lit then [.clear .lampLitWhenDark src] else [])

/-- What a group's change is reported as (R145). -/
def groupActs (g : Fin 4) (old new : LightGroup) : List FaultAct :=
  let src : FaultSource := ⟨.group, g.val⟩
  (if old.state ≠ .failed ∧ new.state = .failed then [.raise .lightGroupFailed src .safety] else []) ++
  (if old.state = .failed ∧ new.state ≠ .failed then [.clear .lightGroupFailed src] else [])

/-- The reports of a change of the driver: the lamps in number order, then the groups (R145, R151 to R153; log 11). -/
def lightActs (old new : Lights) : List FaultAct :=
  ((List.finRange 4).flatMap fun g => LampKind.inOrder.flatMap fun k =>
    lampActs (lampIndex g k) (old.groups[g].lamp k) (new.groups[g].lamp k)) ++
  ((List.finRange 4).flatMap fun g => groupActs g old.groups[g] new.groups[g])

/-- The driver's records replaced, and the faults their change shows reported. -/
def State.setLights (s : State) (l : Lights) : State := State.report { s with lights := l } (lightActs s.lights l)

/-- The current a lamp draws, of the twelve read at the sample point. -/
def currentOf (currents : Vector Nat 12) (g : Fin 4) (k : LampKind) : Nat :=
  if h : lampIndex g k < 12 then currents[lampIndex g k] else 0

/-- Every lamp of each present group sampled (R150, R153). -/
def Lights.sampleAll (p : Plan) (c : Vector Nat 12) (l : Lights) : Lights :=
  l.mapGroups fun g grp =>
    if p.groups[g].present then
      grp.mapLamps fun k lamp => lamp.sample (limitsOf p.groups[g] k) (currentOf c g k)
    else grp

/-- The sample point of the present half-period has come and has not been taken (R147). -/
def Lights.sampleDue (now : Time) (l : Lights) : Bool := reached (after l.began (l.length / 2)) now && !l.sampled

/-- LAMP_SAMPLE_POINT (R150, R153). -/
def opSamplePoint (c : Vector Nat 12) (s : State) : State :=
  if s.lights.sampleDue s.clock then
    let l := { s.lights with sampled := true }
    match s.store.plan with
    | none => { s with lights := l }
    | some p => if l.command = .noPlan then { s with lights := l } else s.setLights (l.sampleAll p c)
  else s

/-- The present half-period has ended (R147). -/
def Lights.halfDue (now : Time) (l : Lights) : Bool := reached (after l.began l.length) now

/-- HALF_PERIOD_END (R147). -/
def opHalfPeriodEnd (s : State) : State :=
  if s.lights.halfDue s.clock then
    { s with lights := s.lights.beginHalf s.clock s.flashHalf s.lights.phase.other s.groupPresent }
  else s

/-! ### Reset and plan changes (R154, R155) -/

/-- A lamp returned to UNKNOWN by RESET EQUIPMENT (R154). -/
def Lamp.wasReset (l : Lamp) : Lamp := { l with state := .unknown, good := 0, bad := 0, kind := .none, enabled := true }

/-- A lamp whose group became present or whose limits changed: its faults go with it, the lit-when-dark condition too; the
last sample kind becomes none and the last samples stay (R155, log 22). -/
def Lamp.renewed (l : Lamp) : Lamp := { l.wasReset with lit := false }

/-- One lamp changed. -/
def Lights.setLamp (g : Fin 4) (k : LampKind) (f : Lamp → Lamp) (l : Lights) : Lights :=
  l.mapGroups fun g' grp => if g' = g then grp.mapLamps fun k' lamp => if k' = k then f lamp else lamp else grp

/-- The group entry of the old plan, or none without a plan. -/
def groupBefore (old : Option Plan) (g : Fin 4) : Option GroupEntry :=
  match old with
  | none => none
  | some p => if p.groups[g].present then some p.groups[g] else none

/-- Outputs of a group turned off. -/
def LightGroup.off (grp : LightGroup) : LightGroup := grp.mapLamps fun _ l => { l with driven := false }

/-- What a swap does to a light group (R155). -/
def LightGroup.swapped (old : Option GroupEntry) (new : GroupEntry) (grp : LightGroup) : LightGroup :=
  if new.present then
    if old = some new then grp else grp.mapLamps fun _ l => l.renewed
  else grp.off

/-- The Light Driver at a swap (R155). The faults of an absent group are cleared under R23. -/
def State.swapLights (s : State) (old : Option Plan) (new : Plan) : State :=
  s.setLights (s.lights.mapGroups fun g grp => grp.swapped (groupBefore old g) new.groups[g])

end Sys2Proof.Machine
end

