-- ==== Sys2Proof/Machine/Flags.lean ====
section
/-! DEFINITION. The flags and values the part derives from its records on reading: the views, the closure causes, the owner's
permission, the second-train check, PROTECTED, the lock, the enables, the winner of an auction, the activation condition and
the content of a STATUS. None of them is stored (log 28). -/

namespace Sys2Proof.Machine

open Sys2Proof

/-! ### Sections and demands -/

/-- A section in doubt: DISTURBED or RESTORING (R87). -/
def SectState.doubtful (st : SectState) : Bool := decide (st = .disturbed) || decide (st = .restoring)

/-- The index of the ISLAND section of a track (R9). -/
def islandOf (p : Plan) (track : Nat) : Option Nat :=
  indexWhere (fun e => decide (e.kind = .island ∧ e.track = track)) 0 p.sects

/-- The state of a section by its index. -/
def stateAt (sects : List SectRec) (i : Nat) : SectState :=
  match sects[i]? with
  | none => .clear
  | some r => r.state

/-- The state of the island of a track. -/
def islandStateOf (p : Plan) (sects : List SectRec) (track : Nat) : SectState :=
  match islandOf p track with
  | none => .clear
  | some i => stateAt sects i

/-- The tracks of the plan that have an island, in the order of their ISLAND entries (R9). -/
def islandTracks (p : Plan) : List Nat :=
  (p.sects.filter fun e => decide (e.kind = .island)).map (·.track)

/-- The island view (R110). -/
def State.islandsNow (s : State) : List IslandView :=
  match s.store.plan with
  | none => []
  | some p => (islandTracks p).map fun t => ⟨t, decide (islandStateOf p s.sects t = .clear)⟩

/-- The distance of a timing position, counted from 1 (R10). -/
def distanceOf (a : ApproachEntry) (j : Nat) : Nat :=
  match a.points[j - 1]? with
  | none => 0
  | some t => t.dist

/-- The provisional margin of an approach (R93). -/
def marginOf (p : Plan) (a : ApproachEntry) : Nat := distanceOf a 2 * 1000 / p.vLine - p.lead

/-- The start figure of a demand (R109). -/
def figureOf (p : Plan) (a : ApproachEntry) (d : DemandRec) : Figure :=
  match d.state, d.ts with
  | .predicted, some t => .at t
  | .timing, _ => .margin (marginOf p a)
  | _, _ => .none

/-- The demand view (R109, R110). -/
def State.demandsNow (s : State) : List DemandView :=
  match s.store.plan with
  | none => []
  | some p => zipWithList (fun a d => ⟨d.state, d.forced, figureOf p a d⟩) p.approaches s.demands

/-! ### Closure and opening (R113, R120 to R122) -/

/-- A demand that is a closure cause (R88). -/
def DemandState.closes (d : DemandState) : Bool := decide (d = .warning) || decide (d = .clearing)

/-- The closure causes (R113). -/
def State.causes (s : State) : List ClosureCause :=
  (if s.crossing.demandView.any (fun v => v.state.closes) then [.demand] else []) ++
  (if s.crossing.islandView.any (fun v => !v.clear) then [.island] else []) ++
  (if s.authority.owner = .remote ∧ s.crossing.remoteClose then [.remoteClose] else []) ++
  (if s.authority.owner = .localPanel ∧ s.pins.panelClose then [.panelClose] else [])

/-- The owner permits opening (R121). -/
def State.permits (s : State) : Bool :=
  match s.authority.owner with
  | .auto => true
  | .test => true
  | .remote => s.crossing.remoteOpen
  | .localPanel => s.pins.panelOpen

/-- The opening limit (R122). -/
def State.openingLimit (s : State) : Nat := s.par 0 fun p => p.tMinOpen + p.tRaiseAllow

/-- A demand allows the road its opening limit (R122). -/
def Figure.allows (now : Time) (limit : Nat) : Figure → Bool
  | .none => true
  | .at ts => decide ((limit : Int) ≤ since ts now)
  | .margin m => decide (limit ≤ m)

/-- The second-train check (R122). -/
def State.secondTrain (s : State) : Bool :=
  s.crossing.demandView.all fun v => v.figure.allows s.clock s.openingLimit

/-- The opening check (R120). -/
def State.mayOpen (s : State) : Bool := s.causes.isEmpty && s.permits && s.secondTrain

/-- Every present machine satisfies a test (R5, R11). -/
def State.everyMachine (s : State) (test : MachineRec → Bool) : Bool :=
  (List.finRange 4).all fun i => !s.machinePresent i || test s.barrier.machines[i]

/-- The machine failed flag (R110). -/
def State.machineFailed (s : State) : Bool := !s.everyMachine fun r => decide (r.state ≠ .failed)

/-- Every present machine is DOWN_PROVED (R119, R128). -/
def State.allDown (s : State) : Bool := s.everyMachine fun r => decide (r.state = .downProved)

/-- Every present machine is DOWN_PROVED or FAILED (R118). -/
def State.allDownOrFailed (s : State) : Bool :=
  s.everyMachine fun r => decide (r.state = .downProved) || decide (r.state = .failed)

/-- Every present machine is UP_PROVED or FAILED (R123). -/
def State.allUpOrFailed (s : State) : Bool :=
  s.everyMachine fun r => decide (r.state = .upProved) || decide (r.state = .failed)

/-- The role of a position (R11). -/
def State.role (s : State) (i : Fin 4) : Role := s.par .entry fun p => p.machines[i].role

/-- Every present entry machine is DOWN_PROVED or FAILED (R117). -/
def State.entryDone (s : State) : Bool :=
  (List.finRange 4).all fun i =>
    !s.machinePresent i || decide (s.role i = .exit) || decide (s.barrier.machines[i].state = .downProved) ||
      decide (s.barrier.machines[i].state = .failed)

/-- Every present light group has a red PROVEN (R128). -/
def State.redsProven (s : State) : Bool :=
  (List.finRange 4).all fun g => !s.groupPresent g || s.lights.groups[g].redProven

/-- PROTECTED (R128). -/
def State.protect (s : State) : Bool := decide (s.crossing.state = .closed) && s.allDown && s.redsProven

/-- The panel PROTECTED output (R129). -/
def State.panelProtected (s : State) : Bool := s.protect

/-! ### Authority (R131 to R133, R138) -/

/-- A crossing state in which the lock is free (R132). -/
def CrossingState.unlocked (c : CrossingState) : Bool :=
  match c with
  | .opened => true
  | .closed => true
  | .degraded => true
  | _ => false

/-- The lock is held (R132). -/
def State.locked (s : State) : Bool := !s.crossing.state.unlocked

/-- The LOCAL enable (R131). -/
def State.localEnable (s : State) : Bool := s.par false Plan.panelFitted && s.authority.localRelease

/-- The REMOTE enable (R131). -/
def State.remoteEnable (s : State) : Bool := s.par false Plan.remotePermitted

/-- The TEST enable (R131). -/
def State.testEnable (s : State) : Bool := s.par false Plan.testPermitted

/-- The eligible owner of highest priority (R131, R133). -/
def State.winner (s : State) : Owner :=
  if s.authority.key && s.localEnable then .localPanel
  else if s.authority.remoteRequest && s.remoteEnable then .remote
  else if s.authority.testRequest && s.testEnable then .test
  else .auto

/-- The IN CONTROL output (R138). -/
def State.inControl (s : State) : Bool := decide (s.authority.owner = .localPanel)

/-! ### The plan activation and STATUS -/

/-- The activation condition (R20). -/
def State.activationCondition (s : State) : Bool :=
  decide (s.crossing.state = .noPlan) ||
    (decide (s.crossing.state = .opened) && s.demands.all (fun d => decide (d.state = .idle)) &&
      s.sects.all (fun r => decide (r.state = .clear)))

/-- What STATUS shows of approach `n` (R191). -/
def shownDemand (demands : List DemandRec) (n : Nat) : Option DemandShown :=
  match demands[n]? with
  | none => none
  | some d => some ⟨d.state, d.forced⟩

/-- The content of a STATUS built now (R191). -/
def State.statusNow (s : State) : StatusContent where
  crossing := s.crossing.state
  protect := s.protect
  held := decide (s.faults.process ≠ .running)
  pending := s.store.pending
  owner := s.authority.owner
  prior := s.authority.prior
  demands := (List.range 8).map (shownDemand s.demands)
  doubtful := (s.sects.filter fun r => r.state.doubtful).length
  groups := (List.finRange 4).map fun g => if s.groupPresent g then some s.lights.groups[g].state else none
  machines := (List.finRange 4).map fun i => if s.machinePresent i then some s.barrier.machines[i].state else none
  planId := s.par 0 Plan.planId
  version := s.par 0 Plan.version

end Sys2Proof.Machine
end

