-- ==== Sys2Proof/Machine/Operands.lean ====
section
/-! DEFINITION. The byte layouts of the line: the framing and its CRC, the telegram as check 1 reads it, and the bodies of
COUNT, STATUS, REPORT and REPLY (R33, R47 to R50, R192). -/

namespace Sys2Proof.Machine

open Sys2Proof

/-! ### Bytes -/

/-- The byte of a number, its low 8 bits. -/
def byteOf (n : Nat) : Byte := BitVec.ofNat 8 n

/-- Two bytes, most significant first (02 2.5). -/
def bytes2 (n : Nat) : List Byte := [byteOf (n / 256), byteOf n]

/-- Four bytes, most significant first (02 2.5). -/
def bytes4 (n : Nat) : List Byte := [byteOf (n / 16777216), byteOf (n / 65536), byteOf (n / 256), byteOf n]

/-- The number of bytes, most significant first (02 2.5). -/
def numberOf (l : List Byte) : Nat := l.foldl (fun n b => n * 256 + b.toNat) 0

/-! ### CRC-16 (R47) -/

/-- One bit of the CRC-16: the polynomial x^16 + x^12 + x^5 + 1, most significant bit first (R47). -/
def crc16Bit (c : BitVec 16) : BitVec 16 := if c.msb then (c <<< 1) ^^^ 0x1021#16 else c <<< 1

/-- One byte of the CRC-16 (R47). -/
def crc16Byte (c : BitVec 16) (b : Byte) : BitVec 16 :=
  let x := c ^^^ (b.zeroExtend 16 <<< 8)
  crc16Bit (crc16Bit (crc16Bit (crc16Bit (crc16Bit (crc16Bit (crc16Bit (crc16Bit x)))))))

/-- The CRC-16 of bytes, starting value FFFF (R47). -/
def crc16 (l : List Byte) : BitVec 16 := l.foldl crc16Byte 0xFFFF#16

/-! ### Codes -/

/-- The kind codes of telegrams (R47). -/
def kindCount : Byte := 1
def kindStatus : Byte := 2
def kindReport : Byte := 3
def kindCommand : Byte := 4
def kindReply : Byte := 5

/-- The start byte (R47). -/
def startByte : Byte := 0x3A

/-- The fill byte, and what a reversed pair delivers in its place (R30, R47). -/
def fillByte : Byte := 0x55
def complementByte : Byte := 0xAA

/-- The code number of a fault (R174). -/
def FaultCode.number : FaultCode → Nat
  | .start => 1
  | .planActivated => 2
  | .authorityChanged => 3
  | .lateStart => 4
  | .shortWarning => 5
  | .relowered => 6
  | .warningWithdrawn => 7
  | .standingTrain => 8
  | .dpRestarted => 9
  | .lampFailed => 10
  | .lampShort => 11
  | .lineErrors => 12
  | .linePolarity => 13
  | .headOneChannel => 14
  | .batteryLow => 15
  | .mainsOff => 16
  | .dpSilent => 17
  | .dpHeadFailed => 18
  | .dpWrongSide => 19
  | .sectionDisturbed => 20
  | .timingFailure => 21
  | .zoneHold => 22
  | .lampLitWhenDark => 23
  | .portDown => 24
  | .lineLoop => 25
  | .listFull => 26
  | .machineFailed => 27
  | .islandUnprotected => 28
  | .lightGroupFailed => 29
  | .crossingNoPlan => 30

/-- The code of a source kind (R50). -/
def SourceKind.number : SourceKind → Nat
  | .crossing => 0
  | .port => 1
  | .dp => 2
  | .head => 3
  | .sect => 4
  | .approach => 5
  | .lamp => 6
  | .group => 7
  | .machine => 8
  | .zone => 9
  | .cabinet => 10
  | .plan => 11
  | .faultTable => 12

/-- The number of a class (R50, R174). -/
def FaultClass.number : FaultClass → Nat
  | .info => 0
  | .advisory => 1
  | .urgent => 2
  | .safety => 3

/-- The code of a crossing state (R49). -/
def CrossingState.number : CrossingState → Nat
  | .opened => 0
  | .amber => 1
  | .redLead => 2
  | .lowerEntry => 3
  | .lowerExit => 4
  | .closed => 5
  | .degraded => 6
  | .raising => 7
  | .testActive => 8
  | .noPlan => 9

/-- The code of an owner (R49). -/
def Owner.number : Owner → Nat
  | .auto => 0
  | .test => 1
  | .remote => 2
  | .localPanel => 3

/-- The code of a demand state (R49). -/
def DemandState.number : DemandState → Nat
  | .idle => 0
  | .timing => 1
  | .predicted => 2
  | .warning => 3
  | .standing => 4
  | .clearing => 5

/-- The code of a group state (R49). -/
def GroupState.number : GroupState → Nat
  | .unknown => 0
  | .proven => 1
  | .degraded => 2
  | .failed => 3

/-- The code of a machine state (R49). -/
def MachineState.number : MachineState → Nat
  | .upProved => 0
  | .lowering => 1
  | .downProved => 2
  | .raising => 3
  | .halted => 4
  | .failed => 5

/-- The code of a head health (R48). -/
def Health.number : Health → Nat
  | .ok => 0
  | .degraded => 1
  | .failed => 2

/-- The code of a REPLY outcome (R192). -/
def ReplyOutcome.number : ReplyOutcome → Nat
  | .done => 0
  | .retry => 1
  | .refusedState => 2
  | .refusedRange => 3
  | .refusedSource => 4
  | .unknown => 5

/-- A flag bit. -/
def bitOf (b : Bool) (weight : Nat) : Nat := if b then weight else 0

/-! ### Bodies -/

/-- A COUNT body (R48). -/
def countBytes (c : CountBody) : List Byte :=
  c.seq :: (bytes2 c.inc ++ bytes2 c.dec ++ [byteOf c.health.number, byteOf (bitOf c.restarted 1)])

/-- The health of its code (R48). -/
def healthOf (b : Byte) : Option Health :=
  match b.toNat with
  | 0 => some .ok
  | 1 => some .degraded
  | 2 => some .failed
  | _ => none

/-- A flag byte, 0 clear or 1 set (R48). -/
def flagOf (b : Byte) : Option Bool :=
  match b.toNat with
  | 0 => some false
  | 1 => some true
  | _ => none

/-- A COUNT body read, when its length and every value are in range (R48). -/
def countOf (body : List Byte) : Option CountBody :=
  match body with
  | [q, i1, i0, d1, d0, h, f] =>
    let i := numberOf [i1, i0]
    let d := numberOf [d1, d0]
    match healthOf h, flagOf f with
    | some hl, some fl => if i ≤ 4095 ∧ d ≤ 4095 then some ⟨q, i, d, hl, fl⟩ else none
    | _, _ => none
  | _ => none

/-- The demand byte of a STATUS (R49). -/
def demandByte : Option DemandShown → Byte
  | none => byteOf 15
  | some d => byteOf (d.state.number + bitOf d.forced 16)

/-- The light group byte of a STATUS (R49). -/
def groupByte : Option GroupState → Byte
  | none => byteOf 15
  | some g => byteOf g.number

/-- The machine byte of a STATUS (R49). -/
def machineByte : Option MachineState → Byte
  | none => byteOf 15
  | some m => byteOf m.number

/-- A STATUS body (R49). -/
def statusBytes (c : StatusContent) : List Byte :=
  [byteOf c.crossing.number, byteOf (bitOf c.protect 1 + bitOf c.held 2 + bitOf c.pending 4), byteOf c.owner.number,
   byteOf c.prior.number] ++ c.demands.map demandByte ++ [byteOf c.doubtful] ++ c.groups.map groupByte ++
  c.machines.map machineByte ++ bytes2 c.planId ++ [byteOf c.version]

/-- A REPORT body (R50). -/
def reportBytes (r : ReportContent) : List Byte :=
  [byteOf r.slot, r.change, byteOf r.code.number, byteOf r.source.kind.number, byteOf r.source.index,
   byteOf r.cls.number, byteOf (bitOf r.active 1 + bitOf r.latched 2)] ++ bytes2 r.raises ++ bytes4 r.first.toNat ++
  bytes4 r.last.toNat

/-- The fields of REPLY data: those of READ in the order of the record's table (R193), those of another reply in the order in
which its rule names them (log 5). -/
def ReplyData.fields : ReplyData → List Field
  | .none => []
  | .ack slot change report => [.number slot, .number change.toNat, .reportState report]
  | .stale slot change => [.number slot, .number change.toNat]
  | .process st => [.process st]
  | .enables advisory info => [.flag advisory, .flag info]
  | .sect index st => [.number index, .sectState st]
  | .lamp st => [.lampState st]
  | .machine st => [.machineState st]
  | .ownerLock o lock => [.owner o, .flag lock]
  | .crossing st => [.crossingState st]
  | .step st => [.step st]
  | .block n => [.number n]
  | .planChecked planId version declared => [.checkResult .checked, .number planId, .number version, .number declared]
  | .planBad item place => [.checkResult (.bad item place)]
  | .activationPending => [.activation false]
  | .activated => [.activation true]
  | .port st => [.portState st]
  | .freed n => [.number n]
  | .read fields => fields

/-- The data bytes of a REPLY: its fields in their order, each a free value, within the 70 bytes that a body leaves them
(log 5). -/
def replyDataBytes (d : ReplyData) : List Byte := (d.fields.flatMap Config.fieldBytes).take 70

/-- The kind code and body of a waiting telegram (R47 to R50, R192). -/
def Payload.bytes : Payload → Byte × List Byte
  | .count b => (kindCount, countBytes b)
  | .status c => (kindStatus, statusBytes c)
  | .report r => (kindReport, reportBytes r)
  | .reply tag o d => (kindReply, tag :: byteOf o.number :: replyDataBytes d)
  | .relayed k b => (k, b)

/-! ### A received telegram (R32, R33) -/

/-- A telegram that has passed check 1. -/
structure Telegram where
  dest : Byte
  src  : Byte
  kind : Byte
  hops : Byte
  age  : Byte
  body : List Byte
  deriving DecidableEq, Repr

/-- The body has the length its kind requires, and a COUNT body its ranges (R33, R48). -/
def bodyFits (kind : Byte) (body : List Byte) : Bool :=
  if kind = kindCount then (countOf body).isSome
  else if kind = kindStatus then decide (body.length = 24)
  else if kind = kindReport then decide (body.length = 17)
  else if kind = kindCommand ∨ kind = kindReply then decide (2 ≤ body.length)
  else false

/-- The header fields are in range (R3, R33). -/
def headerFits (dest src hops len : Byte) : Bool :=
  decide (dest.toNat < 240 ∨ dest.toNat = 255) && decide (src.toNat < 240) && decide (hops.toNat ≤ 15) &&
    decide (len.toNat ≤ 72)

/-- Check 1: the telegram when it passes, none when it fails (R33). Bytes that are no whole telegram fail it (log 34). -/
def Telegram.check (bytes : List Byte) : Option Telegram :=
  match bytes with
  | dest :: src :: kind :: hops :: age :: len :: rest =>
    let n := len.toNat
    let body := rest.take n
    let crc := crc16 ([dest, src, kind, hops, age, len] ++ body)
    if rest.length = n + 2 ∧ numberOf (rest.drop n) = crc.toNat ∧ headerFits dest src hops len ∧ bodyFits kind body then
      some ⟨dest, src, kind, hops, age, body⟩
    else none
  | _ => none

/-- The bytes of a telegram on the line, from the start byte to the CRC (R47). -/
def frameOf (t : Telegram) : List Byte :=
  let covered := [t.dest, t.src, t.kind, t.hops, t.age, byteOf t.body.length] ++ t.body
  startByte :: (covered ++ bytes2 (crc16 covered).toNat)

end Sys2Proof.Machine
end

