-- ==== Sys2Proof/Machine/Line.lean ====
section
/-! DEFINITION. The Line Interface, but for what a received telegram sets off: the port states, the queues, offers, the two
transmitters, and with them the taking of reports and the building of STATUS, which end in an offer (R27 to R31, R41 to R46,
R185, R191). -/

namespace Sys2Proof.Machine

open Sys2Proof

/-! ### Ports -/

/-- The record of a port (R27). -/
def State.port (s : State) : Port → PortRec
  | .box => s.lif.box
  | .field => s.lif.field

/-- The record of a port changed. -/
def State.onPort (s : State) (p : Port) (f : PortRec → PortRec) : State :=
  match p with
  | .box => { s with lif := { s.lif with box := f s.lif.box } }
  | .field => { s with lif := { s.lif with field := f s.lif.field } }

/-- The line counters of a port changed (R46). -/
def State.count (s : State) (p : Port) (f : Counters → Counters) : State :=
  s.onPort p fun r => { r with counters := f r.counters }

/-- W2, W1 and W0 in force (R6, R26). -/
def State.weight2 (s : State) : Nat := s.par 4 Plan.w2
def State.weight1 (s : State) : Nat := s.par 2 Plan.w1
def State.weight0 (s : State) : Nat := s.par 1 Plan.w0

/-- The box port's credits set to the weights in force (R28, R43). -/
def State.newRound (s : State) : State :=
  { s with lif := { s.lif with credit2 := s.weight2, credit1 := s.weight1, credit0 := s.weight0 } }

/-! ### Offers (R42, R44) -/

/-- Room in a box class queue: 16 entries (R42). -/
def classRoom : Nat := 16

/-- Room in the field queue: 32 entries (R44). -/
def fieldRoom : Nat := 32

/-- The queue of a box class (R42). -/
def Lif.queue (l : Lif) (cls : Nat) : List Waiting :=
  match cls with
  | 3 => l.q3
  | 2 => l.q2
  | 1 => l.q1
  | _ => l.q0

/-- The queue of a box class replaced. -/
def Lif.setQueue (l : Lif) (cls : Nat) (q : List Waiting) : Lif :=
  match cls with
  | 3 => { l with q3 := q }
  | 2 => { l with q2 := q }
  | 1 => { l with q1 := q }
  | _ => { l with q0 := q }

/-- A telegram offered to a box class would be accepted (R42). -/
def State.boxAccepts (s : State) (cls : Nat) : Bool :=
  decide (s.lif.box.state = .active) && decide ((s.lif.queue cls).length < classRoom)

/-- A telegram offered to a box class: accepted at the tail, or discarded and counted (R42). -/
def State.offerBox (s : State) (cls : Nat) (w : Waiting) : State :=
  if s.lif.box.state ≠ .active then s.count .box fun c => { c with notActive := up16 c.notActive }
  else if (s.lif.queue cls).length < classRoom then
    { s with lif := s.lif.setQueue cls (s.lif.queue cls ++ [w]) }
  else s.count .box fun c => { c with full := up16 c.full }

/-- A telegram offered to the field queue would be accepted (R44). -/
def State.fieldAccepts (s : State) : Bool :=
  decide (s.lif.field.state = .active) && decide (s.lif.qf.length < fieldRoom)

/-- A telegram offered to the field queue (R44). -/
def State.offerField (s : State) (w : Waiting) : State :=
  if s.lif.field.state ≠ .active then s.count .field fun c => { c with notActive := up16 c.notActive }
  else if s.lif.qf.length < fieldRoom then { s with lif := { s.lif with qf := s.lif.qf ++ [w] } }
  else s.count .field fun c => { c with full := up16 c.full }

/-- A waiting telegram is a STATUS. -/
def Waiting.isStatus (w : Waiting) : Bool :=
  match w.payload with
  | .status _ => true
  | _ => false

/-- A STATUS put in the place of the one waiting (R42). -/
def replaceStatus (w : Waiting) (q : List Waiting) : List Waiting := q.map fun x => if x.isStatus then w else x

/-- A STATUS offered to class 3: it takes the place of one waiting there (R42). -/
def State.offerStatus (s : State) (w : Waiting) : State :=
  if s.lif.box.state = .active ∧ s.lif.q3.any Waiting.isStatus then
    State.count { s with lif := { s.lif with q3 := replaceStatus w s.lif.q3 } } .box
      fun c => { c with replaced := up16 c.replaced }
  else s.offerBox 3 w

/-- A telegram of the part's own, for the signal box unless another destination is given (R41). -/
def ownTelegram (station dest : Byte) (p : Payload) : Waiting := ⟨dest, station, p, .own⟩

/-- A REPLY offered to box class 0; a part without a station address originates none (R192, R27). -/
def State.reply (s : State) (dest tag : Byte) (o : ReplyOutcome) (d : ReplyData) : State :=
  match s.lif.station with
  | none => s
  | some a => s.offerBox 0 (ownTelegram a dest (.reply tag o d))

/-! ### What the line carries (R28 to R31, R44, R47) -/

/-- What the transmit pair carries: a telegram in transmission to its end, nothing in ISOLATED, idle fill otherwise, in DOWN
and CHECKING too (R28, R29, R31, R44, R45). The transmit pair is never inverted (R30). -/
def PortRec.output (r : PortRec) : LineOutput :=
  if r.state = .isolated then .nothing
  else
    match r.sending with
    | none => .fill fillByte
    | some x => .telegram x.frame

/-- The byte on the receive pair that is fill in the port's sense (R28, R30, R47). -/
def PortRec.fillSeen (r : PortRec) : Byte := if r.inverted then complementByte else fillByte

/-- The byte on the receive pair that is the complement of fill in the port's sense (R30, R47). -/
def PortRec.complementSeen (r : PortRec) : Byte := if r.inverted then fillByte else complementByte

/-! ### Line activity and port states (R28 to R31, R45) -/

/-- Line activity (R28, R29). -/
def State.activity (s : State) (p : Port) : State :=
  s.onPort p fun r =>
    if r.state = .down then { r with lastActivity := s.clock, state := .checking, checkStart := s.clock }
    else { r with lastActivity := s.clock }

/-- What the REPORTs of a queue tell the Report Engine when they are removed (R45, R188). -/
def removeReports (t : FaultTable) (q : List Waiting) : FaultTable :=
  q.foldl (fun t w => match w.payload with
    | .report r => t.reportRemoved r.slot r.change
    | _ => t) t

/-- The queues of a port emptied and counted (R45). -/
def State.emptyQueues (s : State) (p : Port) : State :=
  match p with
  | .box =>
    let n := s.lif.q3.length + s.lif.q2.length + s.lif.q1.length + s.lif.q0.length
    let s' := { s with lif := { s.lif with q3 := [], q2 := [], q1 := [], q0 := [] },
                       faults := removeReports s.faults s.lif.q2 }
    s'.count .box fun c => { c with emptied := satAdd 65535 c.emptied n }
  | .field =>
    let n := s.lif.qf.length
    State.count { s with lif := { s.lif with qf := [] } } .field
      fun c => { c with emptied := satAdd 65535 c.emptied n }

/-- Entry to DOWN from CHECKING or ACTIVE (R28). -/
def State.enterDown (s : State) (p : Port) : State :=
  let quiet := decide ((s.port p).state = .checking)
  let s := (s.onPort p fun r => { r with state := .down }).emptyQueues p
  let s := match p with
    | .box => State.newRound { s with faults := s.faults.boxDown }
    | .field => s
  if quiet then s else s.raise .portDown (portSource p) .urgent

/-- 200 ms have passed since the port's last activity (R28). -/
def PortRec.silentFor (now : Time) (r : PortRec) : Bool :=
  (decide (r.state = .checking) || decide (r.state = .active)) && reached (after r.lastActivity 200) now

/-- PORT_ACTIVITY_TIMEOUT (R28). -/
def opPortTimeout (p : Port) (s : State) : State := if (s.port p).silentFor s.clock then s.enterDown p else s

/-- FILL_RECEIVED: the fill byte in the port's sense, `PortRec.fillSeen` (R28, R31). -/
def opFill (p : Port) (s : State) : State := if (s.port p).state = .isolated then s else s.activity p

/-- The polarity inverted, with its fault (R30). -/
def State.invert (s : State) (p : Port) : State :=
  let s' := s.onPort p fun r => { r with inverted := !r.inverted }
  if (s.port p).inverted then s'.clear .linePolarity (portSource p)
  else s'.raise .linePolarity (portSource p) .advisory

/-- COMPLEMENT_BYTES: four consecutive complement bytes, `PortRec.complementSeen`. In DOWN it is the fill that follows in the
new sense that is line activity (R30). -/
def opComplement (p : Port) (s : State) : State :=
  match (s.port p).state with
  | .down => s.invert p
  | .checking => (s.invert p).onPort p fun r => { r with checkStart := s.clock }
  | _ => s

/-- A time list without the times that have left it (R34, R35, R69). -/
def pruned (now : Time) (len : Nat) (l : List Time) : List Time := l.filter fun t => !reached (after t len) now

/-- The line-errors condition has run out (R34). -/
def PortRec.errorsOver (now : Time) (r : PortRec) : Bool := r.lineErrors && (pruned now 10000 r.errorTimes).isEmpty

/-- ERROR_TIME_EXPIRY (R34). -/
def opErrorExpiry (p : Port) (s : State) : State :=
  let s' := s.onPort p fun r => { r with errorTimes := pruned s.clock 10000 r.errorTimes }
  if (s.port p).errorsOver s.clock then
    (s'.onPort p fun r => { r with lineErrors := false }).clear .lineErrors (portSource p)
  else s'

/-- The line-loop condition has run out (R35). -/
def PortRec.loopsOver (now : Time) (r : PortRec) : Bool := r.lineLoop && (pruned now 10000 r.loopTimes).isEmpty

/-- LOOP_TIME_EXPIRY (R35). -/
def opLoopExpiry (p : Port) (s : State) : State :=
  let s' := s.onPort p fun r => { r with loopTimes := pruned s.clock 10000 r.loopTimes }
  if (s.port p).loopsOver s.clock then
    (s'.onPort p fun r => { r with lineLoop := false }).clear .lineLoop (portSource p)
  else s'

/-- A check-1 failure (R33, R34). -/
def State.formatFailure (s : State) (p : Port) : State :=
  let times := pushOldest 21 (pruned s.clock 10000 (s.port p).errorTimes) s.clock
  let full := decide (times.length = 21) && times.head?.any fun t => later t (before s.clock 10000)
  let s' := s.onPort p fun r =>
    { r with errorTimes := times, lineErrors := r.lineErrors || full,
             counters := { r.counters with errors := up16 r.counters.errors } }
  if full && !(s.port p).lineErrors then s'.raise .lineErrors (portSource p) .advisory else s'

/-- A loop discard (R35). -/
def State.loopDiscard (s : State) (p : Port) : State :=
  let times := pushOldest 3 (pruned s.clock 10000 (s.port p).loopTimes) s.clock
  let full := decide (times.length = 3) && times.head?.any fun t => later t (before s.clock 10000)
  let s' := s.onPort p fun r =>
    { r with loopTimes := times, lineLoop := r.lineLoop || full,
             counters := { r.counters with loops := up16 r.counters.loops } }
  if full && !(s.port p).lineLoop then s'.raise .lineLoop (portSource p) .urgent else s'

/-! ### Transmitting (R38, R41, R43, R44) -/

/-- The age of a telegram that waited: it stays 255, or grows by the residence time and 1 up to 255 (R38). -/
def relayedAge (age : Byte) (residence : Nat) : Byte :=
  if age.toNat = 255 then age else byteOf (min 255 (age.toNat + residence + 1))

/-- The age of a local-head COUNT: from the event time, a crossing clock value, to the start of transmission (R41). -/
def axleAge (earliest : Option Time) (now : Moment) : Byte :=
  match earliest with
  | none => 0
  | some t => let a := ceilMs (microsFrom ⟨t, 0⟩ now); if 254 < a then 255 else byteOf a

/-- The hops and the age written at the start of transmission (R38, R41). -/
def Origin.hopsAge (now : Moment) : Origin → Byte × Byte
  | .own => (0, 0)
  | .axle e => (0, axleAge e now)
  | .relay h a arrived => (h + 1, relayedAge a (ceilMs (microsFrom arrived now)))

/-- The telegram as it is sent from `now` on (R38, R41). -/
def Waiting.telegram (now : Moment) (w : Waiting) : Telegram :=
  let ha := w.origin.hopsAge now
  ⟨w.dest, w.src, w.payload.bytes.1, ha.1, ha.2, w.payload.bytes.2⟩

/-- Microseconds that `n` bytes take on the line, ten bit times each at 38.4 or 115.2 kbit/s, rounded up (02 2.4). -/
def lineMicros (fast : Bool) (n : Nat) : Nat := if fast then ceilDiv (n * 15625) 180 else ceilDiv (n * 15625) 60

/-- A telegram in transmission from `now` on. -/
def Waiting.send (fast : Bool) (now : Moment) (w : Waiting) : Sending :=
  let f := frameOf (w.telegram now)
  ⟨f, plusMicros now (lineMicros fast f.length)⟩

/-- A class has a telegram and credit (R43). -/
def Lif.served (l : Lif) (cls : Nat) : Bool :=
  match cls with
  | 2 => !l.q2.isEmpty && decide (0 < l.credit2)
  | 1 => !l.q1.isEmpty && decide (0 < l.credit1)
  | _ => !l.q0.isEmpty && decide (0 < l.credit0)

/-- The class of the present round to serve next (R43). -/
def Lif.inRound (l : Lif) : Option Nat :=
  if l.served 2 then some 2 else if l.served 1 then some 1 else if l.served 0 then some 0 else none

/-- The credit of a class one lower (R43). -/
def Lif.spend (l : Lif) (cls : Nat) : Lif :=
  match cls with
  | 2 => { l with credit2 := l.credit2 - 1 }
  | 1 => { l with credit1 := l.credit1 - 1 }
  | 0 => { l with credit0 := l.credit0 - 1 }
  | _ => l

/-- The head of a box class taken for transmission. -/
def State.sendClass (s : State) (cls : Nat) : State :=
  match s.lif.queue cls with
  | [] => s
  | w :: q =>
    let l := (s.lif.setQueue cls q).spend cls
    { s with lif := { l with box := { l.box with sending := some (w.send s.pins.fast s.moment) } } }

/-- The class the box transmitter serves next, with the state after a new round where one begins (R43). -/
def State.chooseClass (s : State) : Option (Nat × State) :=
  if !s.lif.q3.isEmpty then some (3, s)
  else
    match s.lif.inRound with
    | some c => some (c, s)
    | none =>
      if s.lif.q2.isEmpty && s.lif.q1.isEmpty && s.lif.q0.isEmpty then none
      else s.newRound.lif.inRound.map fun c => (c, s.newRound)

/-- The idle box transmitter takes its next telegram (R43). -/
def State.startBox (s : State) : State :=
  if s.lif.box.state = .active ∧ s.lif.box.sending = none then
    match s.chooseClass with
    | none => s
    | some (c, s') => s'.sendClass c
  else s

/-- The idle field transmitter takes its next telegram (R44). -/
def State.startField (s : State) : State :=
  if s.lif.field.state = .active ∧ s.lif.field.sending = none then
    match s.lif.qf with
    | [] => s
    | w :: q =>
      { s with lif := { s.lif with qf := q,
                                   field := { s.lif.field with sending := some (w.send s.pins.fast s.moment) } } }
  else s

/-- Both transmitters given their next telegram when they are idle. -/
def State.startSending (s : State) : State := s.startBox.startField

/-- The transmission of a port has ended (R43, R44). -/
def PortRec.sendDue (now : Time) (r : PortRec) : Bool :=
  match r.sending with
  | none => false
  | some x => reached x.ends.ms now

/-- TRANSMIT_END (R43, R44). What the transmitter chooses next follows at the end of the step. -/
def opTransmitEnd (p : Port) (s : State) : State :=
  match (s.port p).sending with
  | none => s
  | some x =>
    if reached x.ends.ms s.clock then
      (s.atMicros (if x.ends.ms = s.clock then x.ends.us else 0)).onPort p fun r =>
        { r with sending := none, counters := { r.counters with transmitted := up16 r.counters.transmitted } }
    else s

/-! ### Taking reports (R185) -/

/-- The REPORT of a record as it stands (R50, R185). -/
def reportOf (slot : Nat) (r : FaultRec) : ReportContent :=
  ⟨slot, r.change, r.code, r.source, r.cls, r.active, r.latched, r.raises, r.first, r.last⟩

/-- The conditions of R185 but for a pending record; a part without a station address originates no REPORT (R27, log 23). -/
def State.mayReport (s : State) : Bool :=
  decide (s.faults.process = .running) && decide (s.faults.window.length < 4) && s.boxAccepts 2

/-- One record taken for sending, when R185 has one (R185). -/
def State.takeReport (s : State) : State :=
  match s.lif.station with
  | none => s
  | some a =>
    if s.mayReport then
      match s.faults.nextSlot with
      | none => s
      | some n =>
        match s.faults.get n with
        | none => s
        | some r =>
          State.offerBox { s with faults := s.faults.take s.clock n } 2
            (ownTelegram a 0 (.report (reportOf n r)))
    else s

/-- Records taken until a condition fails: the window holds at most four (R185). -/
def State.selectReports (s : State) : State := s.takeReport.takeReport.takeReport.takeReport

/-! ### STATUS (R191) -/

/-- A STATUS built and offered (R191). -/
def State.buildStatus (s : State) : State :=
  match s.lif.station with
  | none => s
  | some a =>
    if s.lif.box.state = .active then
      let c := s.statusNow
      State.offerStatus { s with builder := ⟨some c, some s.clock⟩ } (ownTelegram a 0 (.status c))
    else s

/-- The content differs from that of the last STATUS built (R191). -/
def State.statusChanged (s : State) : Bool := decide (s.builder.last ≠ some s.statusNow)

/-- One build when the content has changed (R191). -/
def State.statusIfChanged (s : State) : State := if s.statusChanged then s.buildStatus else s

/-- 1000 ms have passed since the last build (R191). -/
def State.statusDue (s : State) : Bool :=
  decide (s.lif.box.state = .active) &&
    match s.builder.lastAt with
    | none => false
    | some t => reached (after t 1000) s.clock

/-- STATUS_PERIOD (R191). -/
def opStatusPeriod (s : State) : State := if s.statusDue then s.buildStatus else s

/-- The port is in CHECKING and 2000 ms have passed since its checking start (R29). -/
def PortRec.checked (now : Time) (r : PortRec) : Bool :=
  decide (r.state = .checking) && reached (after r.checkStart 2000) now

/-- CHECKING_COMPLETE: the port becomes ACTIVE; the box port's entry builds a STATUS (R29, R191). -/
def opCheckingComplete (p : Port) (s : State) : State :=
  if (s.port p).checked s.clock then
    let s := (s.onPort p fun r => { r with state := .active }).clear .portDown (portSource p)
    match p with
    | .box => s.buildStatus
    | .field => s
  else s

/-! ### Isolation (R31) -/

/-- The field port put in ISOLATED (R31). -/
def State.isolate (s : State) : State :=
  let s := match s.lif.field.sending with
    | none => s
    | some _ => (s.onPort .field fun r => { r with sending := none }).count .field
        fun c => { c with emptied := up16 c.emptied }
  ((s.onPort .field fun r => { r with state := .isolated }).emptyQueues .field).clear .portDown (portSource .field)

/-- An ISOLATED field port put in DOWN (R31). -/
def State.restorePort (s : State) : State :=
  (s.onPort .field fun r => { r with state := .down }).raise .portDown (portSource .field) .urgent

end Sys2Proof.Machine
end

