-- ==== Sys2Proof/Machine/Sequence.lean ====
section
/-! DEFINITION. The Sequence Controller and the auction: entry to each crossing state with what it hands to the lights and the
machines, the conditions that move the crossing on, the exit hold, test steps and their end, and what a change of a demand,
an island, a machine, the zone or the owner does (R110 to R129, R132 to R134, R141 to R143, R166, R170). Entries are defined
in the order in which one can follow another inside one step, so that the definitions are not recursive. -/

namespace Sys2Proof.Machine

open Sys2Proof

/-! ### What each state hands out (R111) -/

/-- The direction a state gives a role (R111). -/
def CrossingState.direction (c : CrossingState) (r : Role) : Option Dir :=
  match c, r with
  | .opened, _ => some .raise
  | .amber, _ => none
  | .redLead, _ => none
  | .lowerEntry, .entry => some .lower
  | .lowerEntry, .exit => some .raise
  | .lowerExit, _ => some .lower
  | .closed, _ => some .lower
  | .degraded, _ => some .lower
  | .raising, _ => some .raise
  | .testActive, _ => none
  | .noPlan, _ => some .lower

/-- The light command of a state; a test step gives its own (R111, R146). -/
def CrossingState.light (c : CrossingState) : Option LightCommand :=
  match c with
  | .opened => some .dark
  | .amber => some .amber
  | .testActive => none
  | .noPlan => some .noPlan
  | _ => some .flash

/-- The audible command of a state (R111, R156). -/
def CrossingState.sounds (c : CrossingState) : Bool :=
  match c with
  | .amber => true
  | .redLead => true
  | .lowerEntry => true
  | _ => false

/-- CLOSED or DEGRADED (R119). -/
def CrossingState.isClosed (c : CrossingState) : Bool :=
  match c with
  | .closed => true
  | .degraded => true
  | _ => false

/-- A crossing state entered: the record, the light command and the audible command (R110, R111, R121). -/
def State.enterRecord (s : State) (c : CrossingState) : State :=
  let keep := c.isClosed || !s.crossing.state.isClosed
  let s := { s with crossing := { s.crossing with state := c, entered := s.clock,
                                                  remoteOpen := s.crossing.remoteOpen && keep } }
  let s := match c.light with
    | none => s
    | some l => s.lightCommand l
  s.audibleCommand c.sounds

/-- The direction of a state sent to a position when it is present and that direction was not the last sent (R112). -/
def State.sendTo (c : CrossingState) (s : State) (i : Fin 4) : State :=
  if s.machinePresent i then
    match c.direction (s.role i) with
    | none => s
    | some d => if s.crossing.lastDir[i] = some d then s else s.sendMachine i d
  else s

/-- A crossing state entered with its machine commands (R111, R112). -/
def State.enter (s : State) (c : CrossingState) : State := (List.finRange 4).foldl (State.sendTo c) (s.enterRecord c)

/-! ### The auction (R133, R134) -/

/-- A change of owner; the remote latches go with REMOTE (R134, R121). -/
def State.changeOwner (s : State) (w : Owner) : State :=
  let lost := decide (s.authority.owner = .remote)
  State.momentary
    { s with
      authority := { s.authority with prior := s.authority.owner, owner := w, changed := s.clock }
      crossing := { s.crossing with remoteClose := s.crossing.remoteClose && !lost,
                                    remoteOpen := s.crossing.remoteOpen && !lost } }
    .authorityChanged theCrossing .info

/-- The auction, without what the Sequence Controller then does (R133). -/
def State.elect (s : State) : State :=
  if s.locked then s else if s.winner = s.authority.owner then s else s.changeOwner s.winner

/-! ### Entries -/

/-- Entry to AMBER from OPEN or TEST_ACTIVE (R114). -/
def State.enterAmber (s : State) : State :=
  let s := s.enter .amber
  { s with crossing := { s.crossing with stateTimer := some (after s.clock (s.par 0 Plan.tAmber)) } }

/-- Entry to OPEN: the lock is freed and the auction run; a cause that stands takes the crossing on to AMBER (R123, R133,
R114). The Plan Store looks after the auction and what it leads to (R20), a DESIGN CHOICE (log 12). -/
def State.enterOpen (s : State) : State :=
  let s := s.enter .opened
  let s := State.elect { s with crossing := { s.crossing with loweringStart := none } }
  if s.causes.isEmpty then s else s.enterAmber

/-- Entry to RAISING, and on to OPEN when nothing has to rise (R120, R123). -/
def State.enterRaising (s : State) : State :=
  let s := s.enter .raising
  if s.allUpOrFailed then s.enterOpen else s

/-- The opening check in CLOSED and DEGRADED (R120). -/
def State.openingCheck (s : State) : State :=
  if s.crossing.state.isClosed && s.mayOpen then s.enterRaising else s

/-- Completion of the closure: CLOSED or DEGRADED, the auction, then the opening check (R118, R133, R120; log 12). -/
def State.enterClosure (s : State) : State :=
  let c := if s.machineFailed then CrossingState.degraded else CrossingState.closed
  ((s.enter c).elect).openingCheck

/-- In LOWER_EXIT the closure completes when every present machine is down or failed (R118). -/
def State.tryComplete (s : State) : State := if s.allDownOrFailed then s.enterClosure else s

/-- Entry to LOWER_EXIT (R117). -/
def State.enterLowerExit (s : State) : State :=
  let s := s.enter .lowerExit
  State.tryComplete { s with crossing := { s.crossing with exitTimer := none } }

/-- In LOWER_ENTRY: with the entry machines done and T_exit run, on to LOWER_EXIT, or the wait on the zone (R117). -/
def State.tryLowerExit (s : State) : State :=
  if s.entryDone && s.crossing.exitRun then
    if s.barrier.zone.occupied then s.beginWait else s.enterLowerExit
  else s

/-- Entry to LOWER_ENTRY from RED_LEAD, RAISING or NO_PLAN (R116, R124, R127). -/
def State.enterLowerEntry (s : State) : State :=
  let s := s.enter .lowerEntry
  { s with crossing :=
      { s.crossing with stateTimer := none, loweringStart := some s.clock,
                        exitTimer := some (after s.clock (s.par 0 Plan.tExit)), exitRun := false } }

/-- Relowering from RAISING (R124). -/
def State.relower (s : State) : State := s.enterLowerEntry.momentary .relowered theCrossing .info

/-- A test step abandoned (R126, R143). -/
def State.abandonStep (s : State) : State :=
  let s' := { s with authority := { s.authority with testRequest := false, outcome := .abandoned, step := .none,
                                                     phase := .none, stepEnd := none } }
  match s.authority.step with
  | .machineCycle i => if s.barrier.machines[i].state = .raising then s'.sendMachine i .lower else s'
  | _ => s'

/-- A change of the closure causes or of what opening needs, in the state it finds (R113, R114, R120, R124, R126). -/
def State.causesChanged (s : State) : State :=
  match s.crossing.state with
  | .opened => if s.causes.isEmpty then s else s.enterAmber
  | .testActive => if s.causes.isEmpty then s else s.enterAmber.abandonStep
  | .raising => if s.causes.isEmpty then s else s.relower
  | .closed => s.openingCheck
  | .degraded => s.openingCheck
  | _ => s

/-- The auction at a change of a request or an enable, with its readers (R133, R134). -/
def State.auction (s : State) : State :=
  let s' := s.elect
  if s'.authority.owner = s.authority.owner then s' else s'.causesChanged

/-- The Sequence Controller told of the demands and the islands (R109, R74): it acts when a view has changed. The Plan Store,
told of the same change, looks after it: `State.swapIfDue`, where an event of a COUNT may be followed by another
(`State.handOn`), else at the end of the step (`State.settle`, log 10). -/
def State.tell (s : State) : State :=
  let dv := s.demandsNow
  let iv := s.islandsNow
  if dv = s.crossing.demandView ∧ iv = s.crossing.islandView then s
  else State.causesChanged { s with crossing := { s.crossing with demandView := dv, islandView := iv } }

/-! ### Test steps (R125, R141, R142) -/

/-- The end of a test step, which returns the crossing to OPEN (R125, R141, R142). -/
def State.endStep (s : State) (o : StepOutcome) : State :=
  State.enterOpen
    { s with authority := { s.authority with step := .none, phase := .none, stepEnd := none, outcome := o } }

/-- RAISE sent in a MACHINE CYCLE (R142). -/
def State.cycleRaise (s : State) (i : Fin 4) : State :=
  State.sendMachine { s with authority := { s.authority with phase := .raising } } i .raise

/-- The end of a MACHINE CYCLE as its machine's state shows it, in the RAISING phase or at a failure (R142). -/
def State.cycleEnd (s : State) (i : Fin 4) : State :=
  match s.authority.phase, s.barrier.machines[i].state with
  | _, .failed => s.endStep .failed
  | .raising, .upProved => s.endStep .complete
  | _, _ => s

/-- A MACHINE CYCLE advanced on its machine's state (R142). -/
def State.cycleAdvance (s : State) (i : Fin 4) : State :=
  if s.authority.step = .machineCycle i then
    if s.authority.phase = .lowering ∧ s.barrier.machines[i].state = .downProved then (s.cycleRaise i).cycleEnd i
    else s.cycleEnd i
  else s

/-! ### Machines and the zone (R166, R170) -/

/-- A move between CLOSED and DEGRADED (R119). -/
def State.moveClosure (s : State) (c : CrossingState) : State := (s.enter c).openingCheck

/-- The conditions of the crossing on its machines (R117 to R119, R123). -/
def State.machinesChanged (s : State) : State :=
  match s.crossing.state with
  | .lowerEntry => s.tryLowerExit
  | .lowerExit => s.tryComplete
  | .closed => if s.machineFailed then s.moveClosure .degraded else s
  | .degraded => if !s.machineFailed && s.allDown then s.moveClosure .closed else s
  | .raising => if s.allUpOrFailed then s.enterOpen else s
  | _ => s

/-- A change of a machine's state told to its readers (R166). -/
def State.machineTold (s : State) (i : Fin 4) : State :=
  if s.crossing.state = .testActive then s.cycleAdvance i else s.machinesChanged

/-- The record of a machine replaced at a detector change or a limit, and a change of state told when the machine is present
(R165, R166). -/
def State.machineEvent (s : State) (i : Fin 4) (r : MachineRec) : State :=
  let s' := s.putMachine i r
  if s'.barrier.machines[i].state ≠ s.barrier.machines[i].state ∧ s.machinePresent i then s'.machineTold i else s'

/-- A detector change of machine `i` that waits brings its record to this (R161, R164). -/
def MachineRec.afterWaiting (now : Time) (i : Fin 4) (r : MachineRec) (c : Instr) : MachineRec :=
  match c with
  | .machineDetectorChange k up down boom => if k = i then r.detectors now true up down boom else r
  | _ => r

/-- Machine `i` is down at the moment of the zone edge: its record is DOWN_PROVED, or becomes so by the detector changes that
fall at the same clock value and wait behind the edge (R118, log 47). -/
def State.alreadyDown (s : State) (i : Fin 4) : Bool :=
  let r := s.barrier.machines[i]
  decide (r.state = .downProved) ||
    decide ((s.sameMoment.foldl (MachineRec.afterWaiting s.clock i) r).state = .downProved)

/-- The return from LOWER_EXIT to LOWER_ENTRY: an exit machine already down, or brought down at the same moment by a change
that still waits, is sent nothing and keeps LOWER as its last direction (R118, R112; log 47). -/
def State.zoneReturn (s : State) : State :=
  let s := s.enterRecord .lowerEntry
  let s := (List.finRange 4).foldl (fun s i => if s.alreadyDown i then s else State.sendTo .lowerEntry s i) s
  s.tryLowerExit

/-- The zone shown to a MACHINE CYCLE of an exit machine (R142). -/
def State.cycleZone (s : State) : State :=
  match s.authority.step with
  | .machineCycle i =>
    if s.barrier.zone.occupied && decide (s.authority.phase = .lowering) && decide (s.role i = .exit) then
      (s.cycleRaise i).cycleEnd i
    else s
  | _ => s

/-- A change of the zone told to its readers (R170, R117, R118, R142). -/
def State.zoneTold (s : State) : State :=
  match s.crossing.state with
  | .lowerExit => if s.barrier.zone.occupied then s.zoneReturn else s
  | .lowerEntry => if s.barrier.zone.occupied then s.tryLowerExit else s.endWait.tryLowerExit
  | .testActive => s.cycleZone
  | _ => s

/-! ### The events of this family -/

/-- ZONE_EDGE (R170). -/
def opZoneEdge (active : Bool) (s : State) : State :=
  if s.barrier.zone.occupied = active then s
  else (s.setZone { s.barrier.zone with occupied := active }).zoneTold

/-- MACHINE_DETECTOR_CHANGE (R161, R163, R164, R168). -/
def opDetectorChange (i : Fin 4) (up down boom : Bool) (s : State) : State :=
  let r := s.barrier.machines[i]
  if r.up = up ∧ r.down = down ∧ r.boom = boom then s
  else if s.supervised i then s.machineEvent i (r.detectors s.clock (s.machinePresent i) up down boom)
  else s.setMachine i (r.levels up down boom)

/-- LEAVE_DEADLINE (R160). -/
def opLeaveDeadline (i : Fin 4) (s : State) : State :=
  let r := s.barrier.machines[i]
  if r.leaveDue s.clock then s.machineEvent i (r.fail s.clock .noResponse) else s

/-- TRAVEL_DEADLINE (R161). -/
def opTravelDeadline (i : Fin 4) (s : State) : State :=
  let r := s.barrier.machines[i]
  if r.travelDue s.clock then s.machineEvent i (r.fail s.clock .travelTimeout) else s

/-- The state timer's deadline has been reached (R115, R116). -/
def State.stateTimerDue (s : State) : Bool := due s.crossing.stateTimer s.clock

/-- STATE_TIMER_DEADLINE (R115, R116). -/
def opStateTimer (s : State) : State :=
  if s.stateTimerDue then
    match s.crossing.state with
    | .amber =>
      let s := s.enter .redLead
      { s with crossing := { s.crossing with stateTimer := some (after s.clock (s.par 0 Plan.tRed)) } }
    | .redLead => s.enterLowerEntry
    | _ => s
  else s

/-- The exit timer's deadline has been reached and not yet taken (R117, log 13). -/
def State.exitTimerDue (s : State) : Bool := due s.crossing.exitTimer s.clock && !s.crossing.exitRun

/-- EXIT_TIMER_DEADLINE (R117). -/
def opExitTimer (s : State) : State :=
  if s.exitTimerDue then
    let s := { s with crossing := { s.crossing with exitRun := true } }
    if s.crossing.state = .lowerEntry then s.tryLowerExit else s
  else s

/-- The step end of a LAMP TEST has been reached (R141). -/
def State.lampTestDue (s : State) : Bool := decide (s.authority.step = .lampTest) && due s.authority.stepEnd s.clock

/-- LAMP_TEST_END (R141). -/
def opLampTestEnd (s : State) : State := if s.lampTestDue then s.endStep .complete else s

/-- KEY_EDGE (R138). -/
def opKeyEdge (active : Bool) (s : State) : State :=
  if s.authority.key = active then s else State.auction { s with authority := { s.authority with key := active } }

/-- PANEL_CLOSE_EDGE: told to the Sequence Controller under LOCAL (R138, R113). -/
def opPanelClose (active : Bool) (s : State) : State :=
  let s' := { s with pins := { s.pins with panelClose := active } }
  if s.pins.panelClose = active then s
  else if s.authority.owner = .localPanel then s'.causesChanged else s'

/-- PANEL_OPEN_EDGE: told to the Sequence Controller under LOCAL (R138, R121). -/
def opPanelOpen (active : Bool) (s : State) : State :=
  let s' := { s with pins := { s.pins with panelOpen := active } }
  if s.pins.panelOpen = active then s
  else if s.authority.owner = .localPanel then s'.causesChanged else s'

/-- BATT_LOW_EDGE (R195). -/
def opBattLow (active : Bool) (s : State) : State :=
  let s' := { s with pins := { s.pins with battLow := active } }
  if s.pins.battLow = active then s
  else if active then s'.raise .batteryLow ⟨.cabinet, 0⟩ .advisory else s'.clear .batteryLow ⟨.cabinet, 0⟩

/-- MAINS_OFF_EDGE (R195). -/
def opMainsOff (active : Bool) (s : State) : State :=
  let s' := { s with pins := { s.pins with mainsOff := active } }
  if s.pins.mainsOff = active then s
  else if active then s'.raise .mainsOff ⟨.cabinet, 0⟩ .advisory else s'.clear .mainsOff ⟨.cabinet, 0⟩

end Sys2Proof.Machine
end

