-- ==== Sys2Proof/Machine/Approach.lean ====
section
/-! DEFINITION. The Approach Unit: leading passages, the prediction arithmetic, the start time and its cap, forced demands,
standing trains and the end of a demand (R87 to R109). Each rule is a function of one demand record that answers the new
record and the faults it reports. -/

namespace Sys2Proof.Machine

open Sys2Proof

/-- What a demand sees of its watched sections: every one CLEAR, one in doubt, its island CLEAR, its island OCCUPIED (R87). -/
structure Sight where
  allClear  : Bool
  doubt     : Bool
  islandClear : Bool
  islandOcc : Bool
  deriving DecidableEq, Repr

/-- The states of a demand's watched sections: its approach sections, then its island (R87). -/
def watched (p : Plan) (a : ApproachEntry) (sects : List SectRec) : List SectState :=
  a.sects.map (stateAt sects) ++ [islandStateOf p sects a.track]

/-- The sight of a demand (R87). -/
def sightOf (p : Plan) (a : ApproachEntry) (sects : List SectRec) : Sight where
  allClear := (watched p a sects).all fun st => decide (st = .clear)
  doubt := (watched p a sects).any SectState.doubtful
  islandClear := decide (islandStateOf p sects a.track = .clear)
  islandOcc := decide (islandStateOf p sects a.track = .occupied)

/-- What the rules of a demand read: now, the plan, the approach and its index, and the sight of its sections. -/
structure DemandCtx where
  now   : Time
  plan  : Plan
  entry : ApproachEntry
  index : Nat
  sight : Sight

/-- The source of a fault of the approach. -/
def DemandCtx.source (c : DemandCtx) : FaultSource := ⟨.approach, c.index⟩

/-- A momentary INFO fault of the approach. -/
def DemandCtx.info (c : DemandCtx) (code : FaultCode) : FaultAct := .moment code c.source .info

/-- A demand and what it reports. -/
abbrev DemandStep := DemandRec × List FaultAct

/-- A further rule applied after another, its reports after the other's. -/
def DemandStep.andThen (r : DemandStep) (f : DemandRec → DemandStep) : DemandStep :=
  let r' := f r.1
  (r'.1, r.2 ++ r'.2)

/-- The start time moved to `t` when it is none or later than `t`. -/
def DemandRec.lowerTs (t : Time) (d : DemandRec) : DemandRec :=
  match d.ts with
  | none => { d with ts := some t }
  | some u => if later u t then { d with ts := some t } else d

/-- `t` lies before the start time, or there is none. -/
def DemandRec.tsAfter (t : Time) (d : DemandRec) : Bool :=
  match d.ts with
  | none => true
  | some u => later u t

/-! ### Entries -/

/-- A demand in WARNING, unforced, standing at the stop DP (R105). -/
def DemandCtx.mayStand (c : DemandCtx) (d : DemandRec) : Bool :=
  decide (d.state = .warning) && !d.forced && c.entry.stopPermitted && decide (d.point = some c.entry.stopAt)

/-- Entry to STANDING (R105). -/
def DemandCtx.enterStanding (c : DemandCtx) (d : DemandRec) : DemandStep :=
  ({ d with state := .standing, standing := none }, [c.info .standingTrain])

/-- The standing deadline set, found already past, or absent (R105). -/
def DemandCtx.setStanding (c : DemandCtx) (d : DemandRec) : DemandStep :=
  if c.mayStand d then
    let t := after d.progress c.plan.tStand
    if reached t c.now then c.enterStanding d else ({ d with standing := some t }, [])
  else ({ d with standing := none }, [])

/-- Entry to CLEARING with the warning measured (R101). -/
def DemandCtx.measure (c : DemandCtx) (d : DemandRec) : DemandStep :=
  let given := (c.now - d.warnBegan).toNat
  ({ d with state := .clearing, standing := none, lastWarning := some given },
   if given < c.plan.leadMin then [c.info .shortWarning] else [])

/-- A warning cause that goes on to CLEARING when the island is OCCUPIED (R99). -/
def WarnCause.goesOn (w : WarnCause) : Bool :=
  match w with
  | .prediction => true
  | .latestStart => true
  | .timingFailure => true
  | .restart => true
  | _ => false

/-- Entry to WARNING (R99, R100, R105). -/
def DemandCtx.enterWarning (c : DemandCtx) (w : WarnCause) (d : DemandRec) : DemandStep :=
  let d := { d with state := .warning, cause := w, warnBegan := c.now, progress := c.now, standing := none }
  if w.goesOn && c.sight.islandOcc then c.measure d else c.setStanding d

/-- Entry to WARNING with cause TIMING_FAILURE (R98). A SHORT_WARNING that the entry leads to is raised after TIMING_FAILURE
(R99), a DESIGN CHOICE (log 50). -/
def DemandCtx.timingFailure (c : DemandCtx) (d : DemandRec) : DemandStep :=
  let r := c.enterWarning .timingFailure (d.lowerTs c.now)
  (r.1, .raise .timingFailure c.source .urgent :: r.2)

/-- Entry to IDLE (R108). -/
def DemandCtx.enterIdle (c : DemandCtx) (d : DemandRec) : DemandStep :=
  ({ d with state := .idle, forced := false, t1 := none, point := none, pointTime := none, ts := none, late := false,
            standing := none }, [.clear .timingFailure c.source])

/-! ### The prediction arithmetic (R91, R92) -/

/-- A measured speed and start time; none is a timing failure (R91, R92). -/
def DemandCtx.predict (c : DemandCtx) (i : Nat) (ti : Time) (j : Nat) (tj : Time) : Option (Nat × Time) :=
  let dt := since tj ti
  if dt < 10 then none
  else
    let v := ceilDiv ((distanceOf c.entry i - distanceOf c.entry j) * 1000) dt.toNat
    if c.plan.vLimit < v then none
    else
      let rem := distanceOf c.entry j * 1000 / max v c.plan.vMin
      some (v, before (after tj rem) c.plan.lead)

/-! ### Passages (R89 to R100, R106) -/

/-- The last point passed and its time (R89). -/
def DemandRec.passed (j : Nat) (ev : Option Time) (d : DemandRec) : DemandRec := { d with point := some j, pointTime := ev }

/-- A passage of an IDLE demand (R90). -/
def DemandCtx.passIdle (c : DemandCtx) (j : Nat) (ev : Option Time) (d : DemandRec) : DemandStep :=
  if j = 1 ∧ ev ≠ none then
    ({ d.passed j ev with state := .timing, t1 := ev, speed := none, ts := none }, [])
  else c.timingFailure (d.passed j ev)

/-- A start time entered and compared with now (R96). A late start that finds its island OCCUPIED raises LATE_START first and
then the SHORT_WARNING of its entry to CLEARING (R99), a DESIGN CHOICE (log 50). -/
def DemandCtx.enterStart (c : DemandCtx) (ts : Time) (d : DemandRec) : DemandStep :=
  let d := { d with ts := some ts }
  if later ts c.now then ({ d with state := .predicted }, [])
  else if later c.now ts then
    let r := c.enterWarning .prediction { d with late := true }
    (r.1, c.info .lateStart :: r.2)
  else c.enterWarning .prediction d

/-- A leading passage measured in TIMING or PREDICTED (R94, R95); the first part says whether a start time was computed. -/
def DemandCtx.passMeasured (c : DemandCtx) (j : Nat) (ev : Option Time) (d : DemandRec) : Bool × DemandStep :=
  let found :=
    match d.point, d.pointTime, ev with
    | some i, some ti, some tj => c.predict i ti j tj
    | _, _, _ => none
  match found with
  | some (v, ts) => (true, c.enterStart ts { d.passed j ev with speed := some v })
  | none => (false, c.timingFailure (d.passed j ev))

/-- LATE_START and the late flag when the cap lowers a start time that counts (R97). -/
def DemandCtx.capped (c : DemandCtx) (e : Time) (counts : Bool) (d : DemandRec) : DemandStep :=
  if d.tsAfter e then
    if counts then ({ d with ts := some e, late := true }, [c.info .lateStart]) else ({ d with ts := some e }, [])
  else (d, [])

/-- The latest-start DP has been passed with an event time (R97). -/
def DemandCtx.capTime (c : DemandCtx) (j : Nat) (ev : Option Time) : Option Time :=
  if j = c.entry.latest then ev else none

/-- The cap after a passage that started a demand or was measured (R97); it also reaches a demand that the passage has taken
through WARNING on to CLEARING (log 46). Its LATE_START comes after what the passage raised, and before the SHORT_WARNING of
an entry that the cap itself makes (log 50). -/
def DemandCtx.capMeasured (c : DemandCtx) (j : Nat) (ev : Option Time) (predicted : Bool) (d : DemandRec) : DemandStep :=
  match c.capTime j ev with
  | none => (d, [])
  | some e =>
    DemandStep.andThen (c.capped e predicted d) fun d =>
      if d.state = .predicted then c.enterWarning .latestStart d else (d, [])

/-- A leading passage of a WARNING demand: progress, the cap and the standing rule, in this order by log 50 (R100, R97,
R105). -/
def DemandCtx.passWarning (c : DemandCtx) (j : Nat) (ev : Option Time) (d : DemandRec) : DemandStep :=
  let d := { d.passed j ev with progress := ev.getD c.now }
  let r : DemandStep :=
    match c.capTime j ev with
    | none => (d, [])
    | some e => c.capped e (decide (d.cause = .prediction)) d
  r.andThen c.setStanding

/-- A restart from STANDING (R106). -/
def DemandCtx.passStanding (c : DemandCtx) (j : Nat) (ev : Option Time) (d : DemandRec) : DemandStep :=
  if c.entry.stopAt < j then c.enterWarning .restart ((d.passed j ev).lowerTs (ev.getD c.now)) else (d, [])

/-- Position `j` is beyond the last point passed (R89). -/
def DemandRec.leading (j : Nat) (d : DemandRec) : Bool :=
  match d.point with
  | none => true
  | some i => decide (i < j)

/-- A passage in the approach direction at position `j` (R89). -/
def DemandCtx.passage (c : DemandCtx) (j : Nat) (ev : Option Time) (d : DemandRec) : DemandStep :=
  match d.state with
  | .idle => (c.passIdle j ev d).andThen (c.capMeasured j ev false)
  | .timing =>
    if d.leading j then
      let r := c.passMeasured j ev d
      r.2.andThen (c.capMeasured j ev r.1)
    else (d, [])
  | .predicted =>
    if d.leading j then
      let r := c.passMeasured j ev d
      r.2.andThen (c.capMeasured j ev r.1)
    else (d, [])
  | .warning => if d.leading j then c.passWarning j ev d else (d, [])
  | .standing => if d.leading j then c.passStanding j ev d else (d, [])
  | .clearing => if d.leading j then (d.passed j ev, []) else (d, [])

/-! ### Section changes (R101 to R104, R106 to R108) -/

/-- A demand made forced (R102, R104). -/
def DemandCtx.force (c : DemandCtx) (d : DemandRec) : DemandStep :=
  if d.state = .warning then ({ d with forced := true, standing := none }, [])
  else c.enterWarning .forced ({ d with forced := true }.lowerTs c.now)

/-- The end of a forced hold (R103). -/
def DemandCtx.unforce (c : DemandCtx) (d : DemandRec) : DemandStep :=
  let d := { d with forced := false }
  if c.sight.islandOcc then ({ d with state := .clearing, standing := none }, [])
  else if c.sight.allClear then c.enterIdle d
  else c.setStanding { d with state := .warning }

/-- A change of a watched section seen by a demand; `was` is the sight before it. An event that puts a watched section in
doubt forces the demand before anything else, a DESIGN CHOICE (log 41): before the measuring of an island that the same event
makes OCCUPIED (R101), and before the end of CLEARING when the same event leaves the island CLEAR with an approach section
OCCUPIED, so that the cause is FORCED and not FOLLOWING (R102, R107). -/
def DemandCtx.sectionSeen (c : DemandCtx) (was : Sight) (d : DemandRec) : DemandStep :=
  if c.sight.doubt then
    if d.forced then (d, []) else c.force d
  else if d.forced then c.unforce d
  else
    match d.state with
    | .idle => (d, [])
    | .warning =>
      if was.islandClear && c.sight.islandOcc then c.measure d
      else if c.sight.allClear then
        DemandStep.andThen (c.enterIdle d) fun d => (d, [c.info .warningWithdrawn])
      else (d, [])
    | .clearing =>
      if c.sight.islandClear then
        if c.sight.allClear then c.enterIdle d else c.enterWarning .following (d.lowerTs c.now)
      else (d, [])
    | _ => if c.sight.allClear then c.enterIdle d else (d, [])

/-! ### The demands in the state -/

/-- The context of an approach at the present event. -/
def State.ctx (s : State) (p : Plan) (i : Nat) (a : ApproachEntry) : DemandCtx :=
  ⟨s.clock, p, a, i, sightOf p a s.sects⟩

/-- A rule applied to every demand, each with its approach and index; the faults follow in index order. -/
def State.eachDemand (s : State) (f : DemandCtx → DemandRec → DemandStep) : State :=
  match s.store.plan with
  | none => s
  | some p =>
    let rs := zipWithList (fun ia d => f (s.ctx p ia.1 ia.2) d) (indexed 0 p.approaches) s.demands
    State.report { s with demands := rs.map (·.1) } (rs.flatMap (·.2))

/-- A rule applied to one demand. -/
def State.oneDemand (s : State) (n : Nat) (f : DemandCtx → DemandRec → DemandStep) : State :=
  s.eachDemand fun c d => if c.index = n then f c d else (d, [])

/-- The demands told of a section change: those that watch a section whose state changed (R89, R101 to R108). -/
def State.demandsSeeSections (s : State) (old : List SectRec) : State :=
  s.eachDemand fun c d =>
    if watched c.plan c.entry old = watched c.plan c.entry s.sects then (d, [])
    else c.sectionSeen (sightOf c.plan c.entry old) d

/-- The timing position of a DP on an approach, counted from 1 (R10). -/
def positionOf (a : ApproachEntry) (dp : Nat) : Option Nat := indexWhere (fun t => decide (t.dp = dp)) 1 a.points

/-- A passage offered to every demand, and the result told (R89, R109). -/
def State.passage (s : State) (dp : Nat) (dir : CountDir) (ev : Option Time) : State :=
  State.tell (s.eachDemand fun c d =>
    match positionOf c.entry dp with
    | none => (d, [])
    | some j => if dir = c.entry.dir then c.passage j ev d else (d, []))

/-- The start-time timer of a demand has been reached (R96). -/
def DemandRec.startDue (now : Time) (d : DemandRec) : Bool := decide (d.state = .predicted) && due d.ts now

/-- START_TIME_TIMER (R96). -/
def opStartTimeTimer (n : Nat) (s : State) : State :=
  State.tell (s.oneDemand n fun c d => if d.startDue c.now then c.enterWarning .prediction d else (d, []))

/-- The standing deadline of a demand has been reached (R105). -/
def DemandRec.standingDue (now : Time) (d : DemandRec) : Bool :=
  decide (d.state = .warning) && !d.forced && due d.standing now

/-- STANDING_DEADLINE (R105). -/
def opStandingDeadline (n : Nat) (s : State) : State :=
  State.tell (s.oneDemand n fun c d => if d.standingDue c.now then c.enterStanding d else (d, []))

end Sys2Proof.Machine
end

