-- ==== Sys2Proof/Machine/Sections.lean ====
section
/-! DEFINITION. The Section Table: counting, disturbance, totals, the sweep and restoring (R73 to R86). -/

namespace Sys2Proof.Machine

open Sys2Proof

/-! ### One section -/

/-- A disturbance, its totals starting from the axles given (R76, R78, R83). -/
def SectRec.disturb (now : Time) (cause : SectCause) (axIn axOut : Nat) (r : SectRec) : SectRec :=
  { r with state := .disturbed, count := 0, balance := 0, entered := false, left := false, cause := cause,
           disturbedAt := now, inTotal := axIn, outTotal := axOut }

/-- A count in CLEAR or OCCUPIED (R76). -/
def SectRec.counted (now : Time) (axIn axOut : Nat) (r : SectRec) : SectRec :=
  if r.count + axIn < axOut then r.disturb now .negative axIn axOut
  else
    let n := r.count + axIn - axOut
    if 999 < n then r.disturb now .overflow axIn axOut
    else if n = 0 then { r with state := .clear, count := 0 }
    else { r with state := .occupied, count := n }

/-- The totals (R80). -/
def SectRec.totalled (axIn axOut : Nat) (r : SectRec) : SectRec :=
  { r with inTotal := satAdd 65535 r.inTotal axIn, outTotal := satAdd 65535 r.outTotal axOut }

/-- A sweep that has balanced after an entry (R83). -/
def SectRec.settled (r : SectRec) : SectRec :=
  if r.entered ∧ r.balance = 0 then { r with state := .clear, count := 0, balance := 0, restored := .sweep } else r

/-- A delta in RESTORING (R83). -/
def SectRec.swept (now : Time) (axIn axOut : Nat) (r : SectRec) : SectRec :=
  if r.balance + axIn < axOut then r.disturb now .negative axIn axOut
  else
    let n := r.balance + axIn - axOut
    if 999 < n then r.disturb now .overflow axIn axOut
    else
      SectRec.settled { r.totalled axIn axOut with balance := n, entered := r.entered || decide (0 < axIn),
                                                   left := r.left || decide (0 < axOut) }

/-- A delta taken in the section's state (R75). -/
def SectRec.take (now : Time) (axIn axOut : Nat) (r : SectRec) : SectRec :=
  match r.state with
  | .clear => r.counted now axIn axOut
  | .occupied => r.counted now axIn axOut
  | .disturbed => r.totalled axIn axOut
  | .restoring => r.swept now axIn axOut

/-- A section record as START or a swap creates it (R73). -/
def SectRec.fresh (now : Time) (cause : SectCause) : SectRec :=
  { state := .disturbed, count := 0, cause := cause, disturbedAt := now, restored := .none, balance := 0, inTotal := 0,
    outTotal := 0, entered := false, left := false }

/-- The entering direction of a DP in a bounding list (R9). -/
def enteringOf (e : SectionEntry) (dp : Nat) : Option CountDir :=
  match e.bounds.find? (fun b => decide (b.dp = dp)) with
  | none => none
  | some b => some b.entering

/-- A section bounded by a DP (R65). -/
def boundedBy (dp : Nat) (e : SectionEntry) : Bool := e.bounds.any fun b => decide (b.dp = dp)

/-! ### Faults of a change (R79, R85) -/

/-- The class of SECTION_DISTURBED (R79). -/
def sectClass (e : SectionEntry) : FaultClass := if e.kind = .island then .safety else .urgent

/-- What the change of one section is reported as; `unproved` when the crossing is not CLOSED or DEGRADED (R79, R85). -/
def sectActs (unproved : Bool) (i : Nat) (e : SectionEntry) (old new : SectRec) : List FaultAct :=
  let src : FaultSource := ⟨.sect, i⟩
  (if old.state ≠ .disturbed ∧ new.state = .disturbed then [.raise .sectionDisturbed src (sectClass e)] else []) ++
  (if old.state.doubtful ∧ new.state = .clear then [.clear .sectionDisturbed src] else []) ++
  (if e.kind = .island ∧ old.state = .clear ∧ new.state = .occupied ∧ unproved then
     [.moment .islandUnprotected src .safety] else [])

/-- The reports of one section event, in the order of the sections. -/
def sectEventActs (unproved : Bool) (table : List SectionEntry) (old new : List SectRec) : List FaultAct :=
  (zipWithList (fun ie on => sectActs unproved ie.1 ie.2 on.1 on.2) (indexed 0 table)
    (zipWithList Prod.mk old new)).flatten

/-! ### Section events -/

/-- One event of the Section Table: the records replaced together, the faults reported, the demands and then the Sequence
Controller told (R74, R75, R78). -/
def State.sectionEvent (s : State) (f : SectionEntry → SectRec → SectRec) : State :=
  let new := zipWithList f s.sectTable s.sects
  let acts := sectEventActs (!s.crossing.state.isClosed) s.sectTable s.sects new
  let s' := State.report { s with sects := new } acts
  (s'.demandsSeeSections s.sects).tell

/-- A count delta of a DP (R75). -/
def State.countDelta (s : State) (dp dInc dDec : Nat) : State :=
  s.sectionEvent fun e r =>
    match enteringOf e dp with
    | none => r
    | some .inc => r.take s.clock dInc dDec
    | some .dec => r.take s.clock dDec dInc

/-- A disturbance of every section a DP bounds (R65, R78). -/
def State.disturbDp (s : State) (dp : Nat) (cause : SectCause) : State :=
  s.sectionEvent fun e r => if boundedBy dp e then r.disturb s.clock cause 0 0 else r

/-! ### Restoring (R81 to R84) -/

/-- A restore in mode SWEEP (R82). -/
def SectRec.sweep (r : SectRec) : SectRec :=
  { r with state := .restoring, count := 0, balance := 0, inTotal := 0, outTotal := 0, entered := false, left := false }

/-- A restore in mode DIRECT (R84). -/
def SectRec.direct (r : SectRec) : SectRec :=
  { r with state := .clear, count := 0, balance := 0, inTotal := 0, outTotal := 0, entered := false, left := false,
           restored := .direct }

/-- Every DP of a bounding list is LIVE (R81). -/
def allLive (dps : List DpRec) (e : SectionEntry) : Bool :=
  e.bounds.all fun b =>
    match dps[b.dp]? with
    | none => false
    | some r => decide (r.state = .live)

/-- Two sections share a bounding DP (R9, R81). -/
def neighbours (e f : SectionEntry) : Bool := e.bounds.any fun b => boundedBy b.dp f

/-- No neighbouring section other than section `n` is OCCUPIED, DISTURBED or RESTORING (R81). -/
def neighboursClear (n : Nat) (e : SectionEntry) (table : List SectionEntry) (sects : List SectRec) : Bool :=
  (indexed 0 table).all fun jf =>
    decide (jf.1 = n) || !neighbours e jf.2 || decide (stateAt sects jf.1 = .clear)

/-- The conditions of RESTORE SECTION in their order: the outcome of the first that fails, or DONE (R81). -/
def State.restoreOutcome (s : State) (n mode : Nat) : ReplyOutcome :=
  match s.sectTable[n]?, s.sects[n]? with
  | some e, some r =>
    if 1 < mode then .refusedRange
    else if r.state ≠ .disturbed then .refusedState
    else if !allLive s.dps e then .refusedState
    else if mode = 1 ∧ !e.direct then .refusedState
    else if mode = 1 ∧ !neighboursClear n e s.sectTable s.sects then .refusedState
    else .done
  | _, _ => .refusedRange

/-- The section restored (R82, R84). -/
def State.restoreSection (s : State) (n mode : Nat) : State :=
  let new := modifyAt s.sects n (if mode = 0 then SectRec.sweep else SectRec.direct)
  let acts := sectEventActs false s.sectTable s.sects new
  let s' := State.report { s with sects := new } acts
  (s'.demandsSeeSections s.sects).tell

end Sys2Proof.Machine
end

