-- ==== Sys2Proof/Machine/Detection.lean ====
section
/-! DEFINITION. The Detection Unit: the DP records, taking a COUNT telegram, silence, and the COUNT telegram of a local head
(R53 to R65, R72). A COUNT is several events of other blocks, and the Plan Store is told of each of them (R20, R61, R74,
R109): the operations below take what it does then, `told`, as an argument. `Machine/Store.lean` fixes it for the COUNTs of a
swap itself, `Machine/Heads.lean` for all others. -/

namespace Sys2Proof.Machine

open Sys2Proof

/-! ### DP records (R53 to R65) -/

/-- A DP record replaced. -/
def State.setDp (s : State) (i : Nat) (r : DpRec) : State := { s with dps := modifyAt s.dps i fun _ => r }

/-- The source of a fault of a DP. -/
def dpSource (i : Nat) : FaultSource := ⟨.dp, i⟩

/-- The DP bounds an ISLAND section (R65). -/
def State.boundsIsland (s : State) (i : Nat) : Bool :=
  s.sectTable.any fun e => decide (e.kind = .island) && boundedBy i e

/-- The class of DP_SILENT and DP_HEAD_FAILED (R65, R174). -/
def State.dpClass (s : State) (i : Nat) : FaultClass := if s.boundsIsland i then .safety else .urgent

/-- A DP record as START or a swap creates it (R53). -/
def DpRec.fresh (side : Side) (deadline : Time) : DpRec :=
  { state := .unseen, baseline := false, seq := 0, inc := 0, dec := 0, health := .ok, restart := false, port := side,
    lastTime := 0, deadline := some deadline, missed := 0, deltaInc := 0, deltaDec := 0, lastEvent := none }

/-- A COUNT delivered to a DP record: body, arrival time and port, and the event time its age or its head gives (R39, R60,
R72). -/
structure Delivery where
  body    : CountBody
  arrival : Time
  port    : Side
  event   : Option Time
  deriving DecidableEq, Repr

/-- What every acceptance enters (R54); the first accepted telegram with the restarted flag clear ends the handling of a
restart (R57, log 31). -/
def DpRec.accepted (d : Delivery) (silence : Nat) (r : DpRec) : DpRec :=
  { r with lastTime := d.arrival, port := d.port, deadline := some (after d.arrival silence), health := d.body.health,
           restart := r.restart && d.body.restarted }

/-- The telegram entered as the baseline (R55 to R58). -/
def DpRec.based (d : Delivery) (r : DpRec) : DpRec :=
  { r with baseline := true, seq := d.body.seq, inc := d.body.inc, dec := d.body.dec }

/-- A duplicate (R54). -/
def DpRec.duplicate (d : Delivery) (r : DpRec) : Bool := r.baseline && decide (d.body.seq = r.seq)

/-- DP_SILENT cleared when the record was SILENT, or UNSEEN: a record that a swap has made anew finds the fault of its DP as it
stood (R23, R55, R56, R65; log 49). -/
def State.clearSilent (s : State) (i : Nat) (was : DpState) : State :=
  if was = .silent ∨ was = .unseen then s.clear .dpSilent (dpSource i) else s

/-- A record that takes a telegram with health FAILED; `r` holds the baseline already (R56). -/
def State.dpFailed (s : State) (i : Nat) (was : DpState) (r : DpRec) : State :=
  let s := s.setDp i { r with state := .failed }
  if was = .failed then s
  else (State.raise (s.disturbDp i .headFailed) .dpHeadFailed (dpSource i) (s.dpClass i)).clearSilent i was

/-- Two DP entries name the same DP: the same line address or the same head (R8). -/
def sameDp (x y : DpEntry) : Bool :=
  match x.source, y.source with
  | .line, .line => decide (x.address = y.address)
  | .head, .head => decide (x.head = y.head)
  | _, _ => false

/-- The entry `e` of a new plan keeps the record of the entry `o`: the same DP, side and track (R22). -/
def keepsDp (e o : DpEntry) : Bool := sameDp o e && decide (o.side = e.side) && decide (o.track = e.track)

/-- The index now of the DP that stood at index `i` of the table `old`: a swap between two events of one COUNT gives it the
index at which the new plan keeps its record, if it keeps it (R22, log 51). -/
def dpIndexNow (old new : List DpEntry) (i : Nat) : Option Nat :=
  if old = new then some i
  else
    match old[i]? with
    | none => none
    | some o => indexWhere (fun e => keepsDp e o) 0 new

/-- A passage of the DP that stood at index `i` of the table `old` (R61, log 51). -/
def State.handPassage (s : State) (old : List DpEntry) (i : Nat) (dir : CountDir) (ev : Option Time) : State :=
  match dpIndexNow old s.dpTable i with
  | none => s
  | some j => s.passage j dir ev

/-- Axles handed on, each as one event of which the Plan Store is told: the sections first, then a passage for each direction,
increasing first (R61, R74, R109, R20). -/
def State.handOnBy (told : State → State) (s : State) (i dInc dDec : Nat) (ev : Option Time) : State :=
  let old := s.dpTable
  let s := told (s.countDelta i dInc dDec)
  let s := if dInc = 0 then s else told (s.handPassage old i .inc ev)
  if dDec = 0 then s else told (s.handPassage old i .dec ev)

/-- The largest plausible delta (R58). -/
def maxDelta : Nat := 512

/-- A plausible telegram counted: the gap check, then the axles it carries (R59, R60, R61). `timed` is false for a return from
silence (R64) and `renumbered` for the telegram that reveals a restart with equal counters (R57). -/
def State.dpPlausibleBy (told : State → State) (s : State) (i : Nat) (d : Delivery) (timed renumbered : Bool) (dInc dDec : Nat)
    (r : DpRec) : State :=
  let gap := if renumbered then 0 else wrapDelta 256 d.body.seq.toNat ((r.seq.toNat + 1) % 256)
  let ev := if timed && decide (gap = 0) then d.event else none
  let r := { r.based d with missed := satAdd 65535 r.missed gap }
  if dInc = 0 ∧ dDec = 0 then s.setDp i r
  else (s.setDp i { r with deltaInc := dInc, deltaDec := dDec, lastEvent := ev }).handOnBy told i dInc dDec ev

/-- Counting from a LIVE record (R57 to R61); `r` is accepted and LIVE, `handled` its restart handled before the telegram. -/
def State.dpCountBy (told : State → State) (s : State) (i : Nat) (d : Delivery) (timed handled : Bool) (r : DpRec) : State :=
  let restarts := d.body.restarted && !handled
  let r := { r with restart := d.body.restarted }
  if restarts && (decide (d.body.inc ≠ r.inc) || decide (d.body.dec ≠ r.dec)) then
    ((s.setDp i (r.based d)).disturbDp i .restart).momentary .dpRestarted (dpSource i) .info
  else
    let dInc := wrapDelta 4096 d.body.inc r.inc
    let dDec := wrapDelta 4096 d.body.dec r.dec
    if maxDelta < dInc ∨ maxDelta < dDec then (s.setDp i (r.based d)).disturbDp i .implausible
    else s.dpPlausibleBy told i d timed restarts dInc dDec r

/-- The DP silence limit in force (R6). -/
def State.silence (s : State) : Nat := s.par 0 Plan.silence

/-- A telegram taken as the baseline (R55). As an accepted telegram it clears DP_SILENT, and with health OK or DEGRADED
DP_HEAD_FAILED (R65): a record that a swap has made anew may find either ACTIVE (log 49). -/
def State.dpBaseline (s : State) (i : Nat) (d : Delivery) (was : DpState) (r : DpRec) : State :=
  let r := { r.based d with restart := d.body.restarted }
  if d.body.health = .failed then s.dpFailed i was r
  else ((s.setDp i { r with state := .live }).clearSilent i was).clear .dpHeadFailed (dpSource i)

/-- A delivered COUNT taken by its DP record (R54 to R64). -/
def State.deliverBy (told : State → State) (s : State) (i : Nat) (d : Delivery) : State :=
  match s.dps[i]? with
  | none => s
  | some r0 =>
    if r0.duplicate d then s
    else
      let r := r0.accepted d s.silence
      if !r0.baseline then s.dpBaseline i d r0.state r
      else if d.body.health = .failed then s.dpFailed i r0.state (r.based d)
      else
        match r0.state with
        | .failed =>
          let r := { r with state := .live }
          State.dpCountBy told ((s.setDp i r).clear .dpHeadFailed (dpSource i)) i d true r0.restart r
        | .silent =>
          let r := { r with state := .live }
          State.dpCountBy told (((s.setDp i r).clear .dpSilent (dpSource i)).clear .dpHeadFailed (dpSource i)) i d false
            r0.restart r
        | _ => s.dpCountBy told i d true r0.restart { r with state := .live }

/-- The silence deadline of a record has been reached (R63). -/
def DpRec.silenceDue (now : Time) (r : DpRec) : Bool := decide (r.state ≠ .silent) && due r.deadline now

/-- DP_SILENCE_DEADLINE (R63). -/
def opSilence (i : Nat) (s : State) : State :=
  match s.dps[i]? with
  | none => s
  | some r =>
    if r.silenceDue s.clock then
      State.raise ((s.setDp i { r with state := .silent, deadline := none }).disturbDp i .silent) .dpSilent (dpSource i)
        (s.dpClass i)
    else s

/-! ### The COUNT of a local head (R66, R72) -/

/-- A head record changed. -/
def State.onHead (s : State) (h : Fin 8) (f : HeadRec → HeadRec) : State := { s with heads := s.heads.set h (f s.heads[h]) }

/-- The DP index that names a head (R8). -/
def dpOfHead (table : List DpEntry) (h : Fin 8) : Option Nat :=
  indexWhere (fun e => decide (e.source = .head ∧ e.head = h.val)) 0 table

/-- A head named by the active plan (R8, R66). -/
def State.named (s : State) (h : Fin 8) : Bool := (dpOfHead s.dpTable h).isSome

/-- The health of a head (R69, R70). -/
def HeadRec.healthAt (now : Time) (r : HeadRec) : Health :=
  if r.failed then .failed else if (pruned now 60000 r.oneChannel).isEmpty then .ok else .degraded

/-- The body of a head's next COUNT (R72). -/
def HeadRec.nextBody (now : Time) (r : HeadRec) : CountBody := ⟨r.seq + 1, r.inc, r.dec, r.healthAt now, r.restarted⟩

/-- What an emission leaves in the head record (R72). -/
def HeadRec.emitted (now : Time) (r : HeadRec) : HeadRec :=
  { r with seq := r.seq + 1, earliest := none, lastSent := now, sentHealth := r.healthAt now, owed := false }

/-- A COUNT of a named head: offered to box class 3 and to the field queue under the virtual address, and delivered to the
entry's DP record (R41, R72). -/
def State.emitBy (told : State → State) (s : State) (h : Fin 8) : State :=
  match dpOfHead s.dpTable h with
  | none => s
  | some i =>
    match s.dpTable[i]? with
    | none => s
    | some e =>
      let r := s.heads[h]
      let body := r.nextBody s.clock
      let w : Waiting := ⟨255, e.address, .count body, .axle r.earliest⟩
      let s := ((s.onHead h (HeadRec.emitted s.clock)).offerBox 3 w).offerField w
      s.deliverBy told i ⟨body, s.clock, .localHead, r.earliest⟩

end Sys2Proof.Machine
end

