-- ==== Sys2Proof/Machine/Plan.lean ====
section
/-! DEFINITION. The plan check: the encoding of the plan header and tables, the CRC-32, and the nine items in their order
(R12, R13, R51, R52). A plan image is a list of bytes, byte 0 of the bank first. -/

namespace Sys2Proof.Machine

open Sys2Proof

/-! ### Reading the image (R51, R52) -/

/-- The number in one byte of an image. -/
def u8 (b : List Byte) (i : Nat) : Nat := (b.getD i 0).toNat

/-- The number in two bytes, most significant first. -/
def u16 (b : List Byte) (i : Nat) : Nat := u8 b i * 256 + u8 b (i + 1)

/-- The number in four bytes, most significant first. -/
def u32 (b : List Byte) (i : Nat) : Nat := u16 b i * 65536 + u16 b (i + 2)

/-- A bit of a byte of an image. -/
def bitAt (b : List Byte) (i k : Nat) : Bool := (b.getD i 0).getLsbD k

/-- The declared length (R51). -/
def declaredOf (b : List Byte) : Nat := u16 b 4

/-- DP, section and approach counts (R51). -/
def dpCountOf (b : List Byte) : Nat := u8 b 10
def sectCountOf (b : List Byte) : Nat := u8 b 11
def approachCountOf (b : List Byte) : Nat := u8 b 12

/-- Where the tables begin (R52). -/
def dpTableAt : Nat := 127
def sectTableAt (b : List Byte) : Nat := dpTableAt + 5 * dpCountOf b
def approachTableAt (b : List Byte) : Nat := sectTableAt b + 13 * sectCountOf b

/-- The encoded size (R52). -/
def encodedSize (b : List Byte) : Nat := approachTableAt b + 31 * approachCountOf b

/-- A table entry: `size` bytes from where entry `i` begins. -/
def entryBytes (b : List Byte) (start size i : Nat) : List Byte := (b.drop (start + size * i)).take size

/-- The entries of a table, each as its bytes. -/
def entriesOf (b : List Byte) (start size n : Nat) : List (List Byte) := (List.range n).map (entryBytes b start size)

/-- A DP entry decoded (R52). -/
def dpEntryOf (e : List Byte) : DpEntry where
  source := if u8 e 0 = 1 then .head else .line
  side := if u8 e 1 = 0 then .box else if u8 e 1 = 1 then .field else .localHead
  address := e.getD 2 0
  head := u8 e 3
  track := u8 e 4

/-- A direction byte, 0 INC, 1 DEC (R52). -/
def dirOf (n : Nat) : CountDir := if n = 1 then .dec else .inc

/-- A section entry decoded (R52). -/
def sectEntryOf (e : List Byte) : SectionEntry where
  id := u8 e 0
  track := u8 e 1
  kind := if u8 e 2 = 0 then .approach else if u8 e 2 = 1 then .island else .exit
  direct := decide (u8 e 3 = 1)
  bounds := (List.range (min 4 (u8 e 4))).map fun k => ⟨u8 e (5 + 2 * k), dirOf (u8 e (6 + 2 * k))⟩

/-- An approach entry decoded (R52). -/
def approachEntryOf (e : List Byte) : ApproachEntry where
  track := u8 e 0
  dir := dirOf (u8 e 1)
  points := (List.range (min 6 (u8 e 2))).map fun k => ⟨u8 e (3 + 3 * k), u16 e (4 + 3 * k)⟩
  sects := (List.range (min 6 (u8 e 21))).map fun k => u8 e (22 + k)
  latest := u8 e 28
  stopPermitted := decide (u8 e 29 = 1)
  stopAt := u8 e 30

/-- A light group position decoded (R51). -/
def groupEntryOf (b : List Byte) (n : Nat) : GroupEntry where
  present := decide (u8 b (51 + 13 * n) = 1)
  amber := ⟨u16 b (52 + 13 * n), u16 b (54 + 13 * n)⟩
  redA := ⟨u16 b (56 + 13 * n), u16 b (58 + 13 * n)⟩
  redB := ⟨u16 b (60 + 13 * n), u16 b (62 + 13 * n)⟩

/-- A machine position decoded (R51). -/
def machineEntryOf (b : List Byte) (m : Nat) : MachineEntry where
  present := decide (u8 b (103 + 6 * m) = 1)
  role := if u8 b (104 + 6 * m) = 1 then .exit else .entry
  tLeave := u16 b (105 + 6 * m)
  tTravel := u16 b (107 + 6 * m)

/-- The plan an image encodes (R51, R52). -/
def planOf (b : List Byte) : Plan where
  planId := u16 b 0
  version := u8 b 2
  remotePermitted := bitAt b 3 0
  panelFitted := bitAt b 3 1
  testPermitted := bitAt b 3 2
  audibleFitted := bitAt b 3 3
  advisory := bitAt b 3 4
  info := bitAt b 3 5
  pminHalf := u8 b 13
  lead := u16 b 14
  leadMin := u16 b 16
  tAmber := u16 b 18
  tRed := u16 b 20
  tExit := u16 b 22
  tZone := u16 b 24
  tMinOpen := u16 b 26
  tRaiseAllow := u16 b 28
  tStand := u32 b 30
  vLine := u16 b 34
  vMin := u16 b 36
  vLimit := u16 b 38
  flashHalf := u16 b 40
  silence := u16 b 42
  pmax := u16 b 44
  tDrain := u16 b 46
  w2 := u8 b 48
  w1 := u8 b 49
  w0 := u8 b 50
  dps := (entriesOf b dpTableAt 5 (dpCountOf b)).map dpEntryOf
  sects := (entriesOf b (sectTableAt b) 13 (sectCountOf b)).map sectEntryOf
  approaches := (entriesOf b (approachTableAt b) 31 (approachCountOf b)).map approachEntryOf
  groups := #v[groupEntryOf b 0, groupEntryOf b 1, groupEntryOf b 2, groupEntryOf b 3]
  machines := #v[machineEntryOf b 0, machineEntryOf b 1, machineEntryOf b 2, machineEntryOf b 3]

/-! ### CRC-32 (R51) -/

/-- One bit of the CRC-32, least significant bit first: the reflected polynomial 04C11DB7 (R51). -/
def crc32Bit (c : BitVec 32) : BitVec 32 := if c.getLsbD 0 then (c >>> 1) ^^^ 0xEDB88320#32 else c >>> 1

/-- One byte of the CRC-32 (R51). -/
def crc32Byte (c : BitVec 32) (b : Byte) : BitVec 32 :=
  let x := c ^^^ b.zeroExtend 32
  crc32Bit (crc32Bit (crc32Bit (crc32Bit (crc32Bit (crc32Bit (crc32Bit (crc32Bit x)))))))

/-- The CRC-32 of bytes, with the final inversion (R51). -/
def crc32 (l : List Byte) : BitVec 32 := ~~~ l.foldl crc32Byte 0xFFFFFFFF#32

/-- The bytes the plan CRC covers: the declared length, with bytes 6 to 9 taken as zero (R51). -/
def crcCovered (b : List Byte) : List Byte :=
  let d := b.take (declaredOf b)
  d.take 6 ++ ((d.drop 6).take 4).map (fun _ => (0 : Byte)) ++ d.drop 10

/-- The CRC-32 field of the header (R51). -/
def crcField (b : List Byte) : BitVec 32 := BitVec.ofNat 32 (u32 b 6)

/-! ### The items (R12) -/

/-- A failing item with the place it names. -/
abbrev Failing := PlanItem × Option PlanPlace

/-- The first index in a list at which a test fails. -/
def firstBad {α : Type} (ok : α → Bool) (l : List α) : Option Nat := indexWhere (fun x => !ok x) 0 l

/-- The failure of an item at the first entry of a table that breaks it (log 14). -/
def badEntry {α : Type} (item : PlanItem) (t : PlanTable) (ok : α → Bool) (l : List α) : Option Failing :=
  (firstBad ok l).map fun i => (item, some ⟨t, i⟩)

/-- The failure of an item that names no entry. -/
def badWhole (item : PlanItem) (ok : Bool) : Option Failing := if ok then none else some (item, none)

/-- A number in a range, both ends included. -/
def within (lo hi n : Nat) : Bool := decide (lo ≤ n ∧ n ≤ hi)

/-- LENGTH (R12). -/
def lengthOk (b : List Byte) : Bool :=
  within 1 48 (dpCountOf b) && within 1 32 (sectCountOf b) && within 0 8 (approachCountOf b) &&
    within (encodedSize b) 4096 (declaredOf b)

/-- RANGE over the header (R6, R7, R51). -/
def headerInRange (b : List Byte) (p : Plan) : Bool :=
  decide (u8 b 3 < 64) && within 1 40 p.pminHalf && within 15000 60000 p.lead && within 10000 p.lead p.leadMin &&
  within 2000 5000 p.tAmber && within 2000 10000 p.tRed && within 4000 20000 p.tExit && within 5000 60000 p.tZone &&
  within 5000 30000 p.tMinOpen && within 3000 15000 p.tRaiseAllow && within 30000 600000 p.tStand &&
  within 50 700 p.vLine && within 10 200 p.vMin && within (p.vLine + 1) 900 p.vLimit && within 300 600 p.flashHalf &&
  within 1000 5000 p.silence && within 100 5000 p.pmax && within 1000 60000 p.tDrain && within 1 15 p.w2 &&
  within 1 15 p.w1 && within 1 15 p.w0

/-- A current window in range (R11). -/
def limitsInRange (l : LampLimits) : Bool := within 50 5000 l.imin && within 50 5000 l.imax && decide (l.imin ≤ l.imax)

/-- RANGE over a light group position (R11, R51). -/
def groupInRange (b : List Byte) (p : Plan) (n : Fin 4) : Bool :=
  within 0 1 (u8 b (51 + 13 * n.val)) && limitsInRange p.groups[n].amber && limitsInRange p.groups[n].redA &&
    limitsInRange p.groups[n].redB

/-- RANGE over a machine position (R11, R51). -/
def machineInRange (b : List Byte) (p : Plan) (m : Fin 4) : Bool :=
  within 0 1 (u8 b (103 + 6 * m.val)) && within 0 1 (u8 b (104 + 6 * m.val)) && within 500 5000 p.machines[m].tLeave &&
    within 4000 30000 p.machines[m].tTravel && decide (p.machines[m].tLeave < p.machines[m].tTravel)

/-- RANGE over an equipment position: 0 to 3 the light groups, 4 to 7 the machines (log 14). -/
def equipmentInRange (b : List Byte) (p : Plan) (n : Fin 8) : Bool :=
  if h : n.val < 4 then groupInRange b p ⟨n.val, h⟩ else machineInRange b p ⟨n.val - 4, by omega⟩

/-- RANGE over a DP entry; the head index of a line DP is not checked (R8, R52). -/
def dpInRange (e : List Byte) : Bool :=
  within 0 1 (u8 e 0) && within 0 2 (u8 e 1) && within 1 239 (u8 e 2) && (decide (u8 e 0 = 0) || within 0 7 (u8 e 3)) &&
    within 0 3 (u8 e 4)

/-- RANGE over a section entry (R9, R52). -/
def sectInRange (e : List Byte) : Bool :=
  within 0 3 (u8 e 1) && within 0 2 (u8 e 2) && within 0 1 (u8 e 3) && within 2 4 (u8 e 4) &&
    (List.range (u8 e 4)).all fun k => within 0 47 (u8 e (5 + 2 * k)) && within 0 1 (u8 e (6 + 2 * k))

/-- RANGE over an approach entry; the places of the latest-start DP and the stop DP belong to INDEX (R10, R12, R52). -/
def approachInRange (e : List Byte) : Bool :=
  within 0 3 (u8 e 0) && within 0 1 (u8 e 1) && within 2 6 (u8 e 2) && within 1 6 (u8 e 21) && within 0 1 (u8 e 29) &&
    ((List.range (u8 e 2)).all fun k => within 0 47 (u8 e (3 + 3 * k)) && within 1 65000 (u16 e (4 + 3 * k))) &&
    (List.range (u8 e 21)).all fun k => within 0 31 (u8 e (22 + k))

/-- RANGE: the header, then the equipment, the DPs, the sections, the approaches (R12, log 14). -/
def rangeFailing (b : List Byte) (p : Plan) : Option Failing :=
  (badWhole .range (headerInRange b p)).or <|
  (badEntry .range .equipment (equipmentInRange b p) (List.finRange 8)).or <|
  (badEntry .range .dp dpInRange (entriesOf b dpTableAt 5 (dpCountOf b))).or <|
  (badEntry .range .sect sectInRange (entriesOf b (sectTableAt b) 13 (sectCountOf b))).or
  (badEntry .range .approach approachInRange (entriesOf b (approachTableAt b) 31 (approachCountOf b)))

/-- No entry before the one at an index of a list matches it: of two that match, the later is the one that fails (log 14). -/
def newAt {α : Type} (same : α → α → Bool) (l : List α) (ix : Nat × α) : Bool := !(l.take ix.1).any fun y => same y ix.2

/-- Two DP entries share an address or a head index (R8, R12). -/
def sameIdentity (x y : DpEntry) : Bool :=
  decide (x.address = y.address) || (decide (x.source = .head ∧ y.source = .head) && decide (x.head = y.head))

/-- The side suits the source (R8, R12). -/
def sideFits (e : DpEntry) : Bool :=
  match e.source, e.side with
  | .line, .localHead => false
  | .line, _ => true
  | .head, .localHead => true
  | .head, _ => false

/-- IDENTITY (R12); a part without a station address has none to meet. -/
def identityFailing (station : Option Byte) (p : Plan) : Option Failing :=
  (badEntry .identity .dp
    (fun ie => newAt sameIdentity p.dps ie && sideFits ie.2 && decide (some ie.2.address ≠ station))
    (indexed 0 p.dps)).or
  (badEntry .identity .sect (newAt (fun x y => decide (x.id = y.id)) p.sects) (indexed 0 p.sects))

/-- No value of a list appears twice. -/
def distinct : List Nat → Bool
  | [] => true
  | x :: xs => !xs.contains x && distinct xs

/-- REFERENCE (R12). -/
def referenceFailing (p : Plan) : Option Failing :=
  let dpOk (l : List Nat) : Bool := l.all (fun d => decide (d < p.dps.length)) && distinct l
  (badEntry .reference .sect (fun e => dpOk (e.bounds.map (·.dp))) p.sects).or
  (badEntry .reference .approach
    (fun a => dpOk (a.points.map (·.dp)) && a.sects.all (fun i => decide (i < p.sects.length)) && distinct a.sects)
    p.approaches)

/-- How many ISLAND sections a track has (R9). -/
def islandCount (p : Plan) (t : Nat) : Nat := (p.sects.filter fun e => decide (e.kind = .island ∧ e.track = t)).length

/-- ISLAND (R9, R12): the first entry whose track has not exactly one ISLAND section. -/
def islandFailing (p : Plan) : Option Failing :=
  (badEntry .island .dp (fun e => decide (islandCount p e.track = 1)) p.dps).or <|
  (badEntry .island .sect (fun e => decide (islandCount p e.track = 1)) p.sects).or
  (badEntry .island .approach (fun a => decide (islandCount p a.track = 1)) p.approaches)

/-- Distances strictly decreasing (R10). -/
def decreasing : List TimingPoint → Bool
  | [] => true
  | [_] => true
  | x :: y :: r => decide (y.dist < x.dist) && decreasing (y :: r)

/-- A DP of an index lies on a track. -/
def dpOnTrack (p : Plan) (t i : Nat) : Bool :=
  match p.dps[i]? with
  | none => false
  | some e => decide (e.track = t)

/-- A section of an index is an APPROACH section of a track. -/
def approachSectOn (p : Plan) (t i : Nat) : Bool :=
  match p.sects[i]? with
  | none => false
  | some e => decide (e.kind = .approach ∧ e.track = t)

/-- ORDER (R12). -/
def orderFailing (p : Plan) : Option Failing :=
  badEntry .order .approach
    (fun a => decreasing a.points && a.points.all (fun t => dpOnTrack p a.track t.dp) &&
      a.sects.all (approachSectOn p a.track)) p.approaches

/-- INDEX (R12). -/
def indexFailing (p : Plan) : Option Failing :=
  badEntry .index .approach
    (fun a => within 2 a.points.length a.latest && (!a.stopPermitted || within 1 (a.points.length - 1) a.stopAt))
    p.approaches

/-- The distance of the second timing point (R13). -/
def secondDist (a : ApproachEntry) : Nat :=
  match a.points[1]? with
  | none => 0
  | some t => t.dist

/-- PREDICTION (R13). -/
def predictionFailing (p : Plan) : Option Failing :=
  badEntry .prediction .approach (fun a => decide (p.vLine * p.lead ≤ secondDist a * 1000)) p.approaches

/-- The first failing item of an image, in the order of the table (R12). -/
def failing (station : Option Byte) (b : List Byte) : Option Failing :=
  if lengthOk b then
    let p := planOf b
    (badWhole .crc (decide (crc32 (crcCovered b) = crcField b))).or <| (rangeFailing b p).or <|
    (identityFailing station p).or <| (referenceFailing p).or <| (islandFailing p).or <| (orderFailing p).or <|
    (indexFailing p).or (predictionFailing p)
  else some (.length, none)

/-- The plan check on an image (R12). -/
def checkImage (station : Option Byte) (b : List Byte) : CheckResult :=
  match failing station b with
  | none => .checked
  | some (item, place) => .bad item place

end Sys2Proof.Machine
end

