-- ==== Sys2Proof/Machine/Store.lean ====
section
/-! DEFINITION. The Plan Store: the banks, the block write, the plan check on a bank, activation and the swap with all it
carries over (R14 to R24, R40, R112, R155, R169). -/

namespace Sys2Proof.Machine

open Sys2Proof

/-! ### Banks -/

/-- The other bank. -/
def BankId.other : BankId → BankId
  | .a => .b
  | .b => .a

/-- The index of a bank (R50). -/
def BankId.index : BankId → Nat
  | .a => 0
  | .b => 1

/-- A bank record (R14). -/
def PlanStore.bank (st : PlanStore) : BankId → Bank
  | .a => st.bankA
  | .b => st.bankB

/-- A bank record changed. -/
def PlanStore.onBank (st : PlanStore) (which : BankId) (f : Bank → Bank) : PlanStore :=
  match which with
  | .a => { st with bankA := f st.bankA }
  | .b => { st with bankB := f st.bankB }

/-- The standby bank (01 1.7). -/
def PlanStore.standby (st : PlanStore) : Bank := st.bank st.selected.other

/-- The standby bank changed. -/
def State.onStandby (s : State) (f : Bank → Bank) : State :=
  { s with store := s.store.onBank s.store.selected.other f }

/-- The image of a bank. -/
def Bank.image (b : Bank) : List Byte := Memory.dense b.contents 0 Memory.size

/-- The plan check made on a bank, `good` being the state at a CHECKED result (R12, R14). -/
def Bank.check (station : Option Byte) (good : BankState) (b : Bank) : Bank :=
  match checkImage station b.image with
  | .checked => { b with state := good, result := .checked, planId := u16 b.image 0, version := u8 b.image 2 }
  | r => { b with state := .bad, result := r, planId := 0, version := 0 }

/-! ### The block write (R16) -/

/-- A block written by the program operation is put in the standby bank and the write record emptied (R16). -/
def State.finishWrite (s : State) (w : BlockWrite) : State :=
  let s := s.onStandby fun b => { b with contents := b.contents.writeBlock w.block w.data }
  { s with store := { s.store with write := none } }

/-- PLAN_BLOCK_WRITE_COMPLETE (R16). -/
def opWriteComplete (s : State) : State :=
  match s.store.write with
  | none => s
  | some w => (s.finishWrite w).reply 0 w.tag .done (.block w.block)

/-- The longest a program operation takes (R16). -/
def State.writeDue (s : State) : Bool :=
  match s.store.write with
  | none => false
  | some w => reached (after w.began 40) s.clock

/-- The block number and data of PLAN BLOCK when they are in range (R16). -/
def blockArgs (args : List Byte) : Option (Nat × List Byte) :=
  match args with
  | k :: data => if k.toNat ≤ 63 ∧ data.length = 64 then some (k.toNat, data) else none
  | [] => none

/-- PLAN BLOCK (R16). -/
def cmdPlanBlock (tag : Byte) (args : List Byte) (s : State) : State :=
  if s.store.write.isSome then s.reply 0 tag .retry .none
  else if s.store.pending then s.reply 0 tag .refusedState .none
  else
    match blockArgs args with
    | none => s.reply 0 tag .refusedRange .none
    | some (k, data) =>
      let s := s.onStandby fun b => { b with state := .loading, result := .none, planId := 0, version := 0 }
      { s with store := { s.store with write := some ⟨k, tag, data, s.clock⟩ } }

/-- What PLAN CHECK answers of the result (R18). -/
def checkData (b : Bank) : ReplyData :=
  match b.result with
  | .bad item place => .planBad item place
  | _ => .planChecked b.planId b.version (declaredOf b.image)

/-- PLAN CHECK (R18). -/
def cmdPlanCheck (tag : Byte) (s : State) : State :=
  if s.store.write.isSome then s.reply 0 tag .retry .none
  else if s.store.pending then s.reply 0 tag .refusedState .none
  else if s.store.standby.state = .empty then s.reply 0 tag .refusedState .none
  else
    let s := s.onStandby (Bank.check s.lif.station .checked)
    s.reply 0 tag .done (checkData s.store.standby)

/-- PLAN CANCEL (R24). -/
def cmdPlanCancel (tag : Byte) (s : State) : State :=
  if s.store.pending then State.reply { s with store := { s.store with pending := false } } 0 tag .done .none
  else s.reply 0 tag .refusedState .none

/-! ### What a swap carries over (R22, R23) -/

/-- The DP entries of the plan before the swap, none from NO_PLAN. -/
def dpsBefore (old : Option Plan) : List DpEntry := match old with | none => [] | some p => p.dps
def sectsBefore (old : Option Plan) : List SectionEntry := match old with | none => [] | some p => p.sects
def approachesBefore (old : Option Plan) : List ApproachEntry := match old with | none => [] | some p => p.approaches

/-- A DP record of the new plan: kept by identity, side and track, or new (R22). -/
def carryDp (now : Time) (old : Option Plan) (new : Plan) (recs : List DpRec) (e : DpEntry) : DpRec :=
  let kept := match indexWhere (keepsDp e) 0 (dpsBefore old) with
    | none => none
    | some i => recs[i]?
  kept.getD (DpRec.fresh e.side (after now new.silence))

/-- One pair of a bounding list stands in another: the same DP identity and entering direction (R22). -/
def hasBound (oldDps newDps : List DpEntry) (b : Bound) (l : List Bound) : Bool :=
  l.any fun c => decide (c.entering = b.entering) &&
    match oldDps[c.dp]?, newDps[b.dp]? with
    | some x, some y => sameDp x y
    | _, _ => false

/-- Two bounding lists are the same, in any order (R22). -/
def sameBounds (oldDps newDps : List DpEntry) (o n : List Bound) : Bool :=
  decide (o.length = n.length) && n.all fun b => hasBound oldDps newDps b o

/-- The record a section of the new plan keeps, if any (R22). -/
def keptSect (old : Option Plan) (new : Plan) (recs : List SectRec) (e : SectionEntry) : Option SectRec :=
  match indexWhere (fun o => decide (o.id = e.id) && decide (o.track = e.track) &&
      sameBounds (dpsBefore old) new.dps o.bounds e.bounds) 0 (sectsBefore old) with
  | none => none
  | some i => recs[i]?

/-- A section record of the new plan: kept, or DISTURBED with cause PLAN (R22). -/
def carrySect (now : Time) (old : Option Plan) (new : Plan) (recs : List SectRec) (e : SectionEntry) : SectRec :=
  (keptSect old new recs e).getD (SectRec.fresh now .plan)

/-- The raises for new and changed sections (R22, R79). -/
def newSectActs (old : Option Plan) (new : Plan) (recs : List SectRec) : List FaultAct :=
  (indexed 0 new.sects).flatMap fun ie =>
    if (keptSect old new recs ie.2).isSome then [] else [.raise .sectionDisturbed ⟨.sect, ie.1⟩ (sectClass ie.2)]

/-- A demand as a swap creates it (R23, R87); warning cause and last point time are DESIGN CHOICE 8. -/
def DemandRec.created (now : Time) : DemandRec :=
  { state := .idle, forced := false, cause := .none, t1 := none, point := none, pointTime := none, speed := none,
    ts := none, warnBegan := now, progress := now, lastWarning := none, late := false, standing := none }

/-- The object of an index differs in the new plan, or either plan lacks it (R23). -/
def differs {α : Type} (same : α → α → Bool) (old new : List α) (i : Nat) : Bool :=
  match old[i]?, new[i]? with
  | some x, some y => !same x y
  | _, _ => true

/-- A position 0..3 satisfies a test. -/
def positionHas (test : Fin 4 → Bool) (i : Nat) : Bool := if h : i < 4 then test ⟨i, h⟩ else false

/-- A source is absent from the new plan (R23); ports, the crossing and the plan are always present, and so, by log 45, are the
zone, the cabinet and the fault table. -/
def sourceAbsent (old : Option Plan) (new : Plan) (src : FaultSource) : Bool :=
  match src.kind with
  | .dp => differs sameDp (dpsBefore old) new.dps src.index
  | .sect => differs (fun x y => decide (x.id = y.id)) (sectsBefore old) new.sects src.index
  | .approach =>
    differs (fun x y => decide (x.track = y.track ∧ x.dir = y.dir)) (approachesBefore old) new.approaches src.index
  | .head => !new.dps.any fun e => decide (e.source = .head ∧ e.head = src.index)
  | .lamp => !positionHas (fun g => new.groups[g].present) (src.index / 3)
  | .group => !positionHas (fun g => new.groups[g].present) src.index
  | .machine => !positionHas (fun i => new.machines[i].present) src.index
  | _ => false

/-- One slot at a swap: an ACTIVE record of an absent source receives a clear (R23). -/
def FaultTable.clearAbsentSlot (now : Time) (absent : FaultSource → Bool) (t : FaultTable) (n : Nat) : FaultTable :=
  t.update n fun r => if r.active && absent r.source then r.cleared now else r

/-- The clears of absent sources (R23). -/
def FaultTable.clearAbsent (t : FaultTable) (now : Time) (absent : FaultSource → Bool) : FaultTable :=
  (List.range 64).foldl (FaultTable.clearAbsentSlot now absent) t

/-- The DP_WRONG_SIDE clears at a swap, each under its old index, for the addresses whose DP the new plan declares (R40). -/
def wrongSideActs (old : Option Plan) (new : Plan) (set : List Byte) : List FaultAct :=
  (indexed 0 (dpsBefore old)).flatMap fun ie =>
    if ie.2.source = .line ∧ set.contains ie.2.address ∧ new.dps.any (sameDp ie.2) then
      [.clear .dpWrongSide (dpSource ie.1)]
    else []

/-- A head newly named at a swap: a channel active then is active from the swap, timed by the new plan's head Pmax; the rest of
the record is unchanged (R66, log 16). -/
def HeadRec.namedNow (m : Moment) (limit : Nat) (r : HeadRec) : HeadRec :=
  let on (c : ChannelRec) : ChannelRec := { c with since := if c.level then some m else none, limit := limit }
  { r with a := on r.a, b := on r.b }

/-- A head that the new plan names and the old did not (R66, R72). -/
def newlyNamed (old : Option Plan) (new : Plan) (h : Fin 8) : Bool :=
  (dpOfHead new.dps h).isSome && (dpOfHead (dpsBefore old) h).isNone

/-- The machine position keeps its record at a swap (R169). -/
def keepsMachine (old : Option Plan) (new : Plan) (i : Fin 4) : Bool :=
  match old with
  | none => false
  | some p => p.machines[i] = new.machines[i]

/-- A machine position at a swap (R169, R112). -/
def State.swapMachine (old : Option Plan) (new : Plan) (s : State) (i : Fin 4) : State :=
  let e := new.machines[i]
  let r : MachineRec := { s.barrier.machines[i] with tLeave := e.tLeave, tTravel := e.tTravel }
  if !e.present then s.setMachine i r.unsupervised
  else if keepsMachine old new i then s
  else
    let m := r.fromDetectors s.clock true
    let s : State := { s.setMachine i m with crossing := { s.crossing with lastDir := s.crossing.lastDir.set i none } }
    if m.state = .failed then s.raiseMachineFailed i
    else if r.state = .failed then
      let cleared := s.clear .machineFailed ⟨.machine, i.val⟩
      if s.crossing.state = .opened then cleared.sendMachine i .raise else cleared
    else s

/-- Every demand in doubt made forced, as at its creation by a swap (R87, R102). -/
def State.forceDoubtful (s : State) : State :=
  s.eachDemand fun c d => if c.sight.doubt && !d.forced then c.force d else (d, [])

/-- The banks, the flag and the plan in force after a swap (R21). -/
def PlanStore.swapped (st : PlanStore) (new : Plan) : PlanStore :=
  let out := st.onBank st.selected fun b => if b.state = .active then { b with state := .checked } else b
  { out.onBank st.selected.other (fun b => { b with state := .active }) with
    selected := st.selected.other, pending := false, plan := some new }

/-- The records of detection, sections and demands at a swap (R22, R23, R40). -/
def State.swapRecords (s : State) (old : Option Plan) (new : Plan) : State :=
  let acts := wrongSideActs old new s.lif.wrongSide
  let s := State.report { s with lif := { s.lif with wrongSide := [] } } acts
  let s := { s with faults := s.faults.clearAbsent s.clock (sourceAbsent old new) }
  let acts := newSectActs old new s.sects
  State.report
    { s with
      dps := new.dps.map (carryDp s.clock old new s.dps)
      sects := new.sects.map (carrySect s.clock old new s.sects)
      demands := new.approaches.map fun _ => DemandRec.created s.clock
      heads := Vector.ofFn fun h => if newlyNamed old new h then s.heads[h].namedNow s.moment (new.pmax * 1000) else s.heads[h] }
    acts

/-- The equipment and the class enables at a swap (R7, R155, R169, R23). -/
def State.swapEquipment (s : State) (old : Option Plan) (new : Plan) : State :=
  let s := { s with faults := { s.faults with advisory := new.advisory, info := new.info } }
  let s := s.swapLights old new
  let s := (List.finRange 4).foldl (State.swapMachine old new) s
  s.momentary .planActivated ⟨.plan, s.store.selected.index⟩ .info

/-- The crossing at a swap: LOWER_ENTRY from NO_PLAN, the views rebuilt, the new enables, then the changes that follow
(R21, R23, R127; logs 11, 12). -/
def State.swapCrossing (s : State) : State :=
  let s := if s.crossing.state = .noPlan then s.enterLowerEntry.clear .crossingNoPlan theCrossing else s
  let s := { s with crossing := { s.crossing with demandView := s.demandsNow, islandView := s.islandsNow } }
  s.elect.forceDoubtful.tell.causesChanged

/-- The first COUNT of each head newly named at a swap (R72); the flag is IDLE again by then, so the Plan Store looks for
nothing. -/
def State.emitNamed (s : State) (old : Option Plan) (new : Plan) : State :=
  (List.finRange 8).foldl (fun s h => if newlyNamed old new h then s.emitBy id h else s) s

/-- The swap (R21, R22, R23). -/
def State.swap (s : State) : State :=
  let old := s.store.plan
  let new := planOf s.store.standby.image
  let s := { s with store := s.store.swapped new }
  (((s.swapRecords old new).swapEquipment old new).swapCrossing).emitNamed old new

/-- The COUNT of every change that a head owes, emitted now; the Plan Store is not told between them (R72, log 37). -/
def State.owedCarried (s : State) : State :=
  (List.finRange 8).foldl (fun s h => if s.heads[h].owed then s.emitBy id h else s) s

/-- A pending activation whose condition holds, and holds still once the COUNTs that the heads owe at this clock value have
been taken (R20, R72; log 37). -/
def State.swapDue (s : State) : Bool := s.store.pending && s.activationCondition && s.owedCarried.activationCondition

/-- The Plan Store told of a change: the swap is made when it is due, after the COUNTs that the heads owe, so that a head
which the new plan no longer names has told all its changes (R20, R72; log 37). -/
def State.swapIfDue (s : State) : State := if s.swapDue then s.owedCarried.swap else s

/-- PLAN ACTIVATE (R19). -/
def cmdPlanActivate (tag : Byte) (planId version : Nat) (s : State) : State :=
  let b := s.store.standby
  if b.state ≠ .checked then s.reply 0 tag .refusedState .none
  else if b.planId ≠ planId ∨ b.version ≠ version then s.reply 0 tag .refusedState .none
  else if s.store.pending then s.reply 0 tag .done .activationPending
  else
    let s := { s with store := { s.store with pending := true } }
    if s.swapDue then s.swapIfDue.reply 0 tag .done .activated else s.reply 0 tag .done .activationPending

end Sys2Proof.Machine
end

