-- ==== Sys2Proof/Machine/Heads.lean ====
section
/-! DEFINITION. The COUNT telegrams as the part takes and emits them, the Plan Store looking for its condition after each of
their events (R20, R54 to R64, R72, R74, R109), and the local wheel-sensor heads (R66 to R72). -/

namespace Sys2Proof.Machine

open Sys2Proof

/-! ### COUNT telegrams (R54 to R64, R72) -/

/-- Axles handed on, the Plan Store looking for its condition after the event of the sections and after each passage (R20,
R61, R74, R109). -/
def State.handOn (s : State) (i dInc dDec : Nat) (ev : Option Time) : State := s.handOnBy State.swapIfDue i dInc dDec ev

/-- A delivered COUNT taken by its DP record (R54 to R64). -/
def State.deliver (s : State) (i : Nat) (d : Delivery) : State := s.deliverBy State.swapIfDue i d

/-- A COUNT of a named head (R41, R72). -/
def State.emit (s : State) (h : Fin 8) : State := s.emitBy State.swapIfDue h

/-! ### Local heads (R66 to R72) -/

/-- The source of a fault of a head. -/
def headSource (h : Fin 8) : FaultSource := ⟨.head, h.val⟩

/-- An event of the head itself that can be a change of it: an edge or a stuck channel, the end of its one-channel list, the
clearing of the restarted flags (R72). -/
def changesHead (h : Fin 8) (i : Instr) : Bool :=
  match i with
  | .headChannelEdge k _ _ _ => decide (k = h)
  | .headStuck k _ => decide (k = h)
  | .oneChannelExpiry k => decide (k = h)
  | .restartedFlagClears => true
  | _ => false

/-- A further such event of the head waits at this clock value (R72, log 37). One behind a START is none: the head is reset
before it, so that what the head owes goes out before the START. -/
def State.headWaits (s : State) (h : Fin 8) : Bool := s.sameMoment.any (changesHead h)

/-- A change of the head, which its next COUNT carries (R72). -/
def State.owe (s : State) (h : Fin 8) : State := s.onHead h fun r => { r with owed := true }

/-- A change of the head's health, if there is one (R72). -/
def State.oweHealth (s : State) (h : Fin 8) : State :=
  if s.heads[h].healthAt s.clock = s.heads[h].sentHealth then s else s.owe h

/-- The COUNT that carries what the head owes, emitted at the last of the events that fall at one clock value (R72, log 37). -/
def State.carry (s : State) (h : Fin 8) : State := if s.heads[h].owed && !s.headWaits h then s.emit h else s

/-- One channel of a head. -/
def HeadRec.channel (r : HeadRec) : Channel → ChannelRec
  | .a => r.a
  | .b => r.b

/-- The other channel. -/
def otherChannel : Channel → Channel
  | .a => .b
  | .b => .a

/-- One channel of a head changed. -/
def HeadRec.onChannel (c : Channel) (f : ChannelRec → ChannelRec) (r : HeadRec) : HeadRec :=
  match c with
  | .a => { r with a := f r.a }
  | .b => { r with b := f r.b }

/-- The unpaired pulses of both channels dropped. -/
def HeadRec.dropUnpaired (r : HeadRec) : HeadRec :=
  { r with a := { r.a with unpaired := none }, b := { r.b with unpaired := none } }

/-- Entry to FAILED (R70). -/
def HeadRec.fail (c : HeadCause) (r : HeadRec) : HeadRec := { r.dropUnpaired with failed := true, cause := c }

/-- A one-channel event entered in the list, the fourth within 60000 ms failing the head (R69). -/
def HeadRec.oneChannelEvent (now : Time) (r : HeadRec) : HeadRec :=
  let l := pushOldest 4 (pruned now 60000 r.oneChannel) now
  let r := { r with oneChannel := l }
  if l.length = 4 ∧ l.head?.any (fun t => later t (before now 60000)) then r.fail .oneChannel else r

/-- A one-channel event (R69). -/
def State.oneChannel (s : State) (h : Fin 8) : State :=
  State.oweHealth
    ((s.momentary .headOneChannel (headSource h) .advisory).onHead h (HeadRec.oneChannelEvent s.clock)) h

/-- An axle validated now, by the pulse that began first (R68): channel A before B counts up, B before A down. -/
def HeadRec.axle (now : Time) (aFirst : Bool) (r : HeadRec) : HeadRec :=
  let r := { r with earliest := some (r.earliest.getD now) }
  if aFirst then { r with inc := (r.inc + 1) % 4096 } else { r with dec := (r.dec + 1) % 4096 }

/-- The shortest and the longest valid pulse in microseconds (R67). -/
def State.pminMicros (s : State) : Nat := s.par 0 fun p => p.pminHalf * 500
def State.pmaxMicros (s : State) : Nat := s.par 0 fun p => p.pmax * 1000

/-- The valid pulse of a channel that waits for the pulse which the other channel began at `t`: they overlap (R68). A pulse left
waiting when a plan stopped naming its head overlaps none that comes after, and pairs with none (log 16). -/
def ChannelRec.waitsFor (x : ChannelRec) (t : Moment) : Option Pulse := x.unpaired.filter fun w => momentBefore t w.last

/-- A noise pulse of channel `c` that began at `t`: a pulse that waited for it has no partner (R67, R69). -/
def State.noisePulse (s : State) (h : Fin 8) (c : Channel) (t : Moment) : State :=
  match (s.heads[h].channel (otherChannel c)).waitsFor t with
  | none => s
  | some _ => (s.onHead h (HeadRec.onChannel (otherChannel c) fun x => { x with unpaired := none })).oneChannel h

/-- A valid pulse of channel `c` paired with the waiting pulse `w` of the other channel (R68). -/
def State.pairPulses (s : State) (h : Fin 8) (c : Channel) (p w : Pulse) : State :=
  let s := s.onHead h (HeadRec.onChannel (otherChannel c) fun x => { x with unpaired := none })
  if p.first = w.first then s.oneChannel h
  else
    let cFirst := momentBefore p.first w.first
    let aFirst := match c with
      | .a => cFirst
      | .b => !cFirst
    (s.onHead h (HeadRec.axle s.clock aFirst)).owe h

/-- A valid pulse of channel `c` at its end is the channel's last pulse: it pairs, waits for an overlapping pulse under way for
which none of its channel waits already, or is a one-channel event (R66, R68, R69; log 15). -/
def State.validPulse (s : State) (h : Fin 8) (c : Channel) (p : Pulse) : State :=
  let s := s.onHead h (HeadRec.onChannel c fun x => { x with last := some p })
  let other := s.heads[h].channel (otherChannel c)
  match other.waitsFor p.first with
  | some w => s.pairPulses h c p w
  | none =>
    let waits := match other.since with
      | none => false
      | some t => momentBefore t p.last && ((s.heads[h].channel c).waitsFor t).isNone
    if waits then
      s.onHead h (HeadRec.onChannel c fun x => { x with unpaired := some p })
    else s.oneChannel h

/-- A stuck channel: the head fails (R67, R70). -/
def State.stuck (s : State) (h : Fin 8) : State := (s.onHead h (HeadRec.fail .stuck)).oweHealth h

/-- A pulse of a named head in OK judged at its end, `limit` being the head Pmax it was timed by: noise leaves the channel's
last pulse as it was, and so does a channel found stuck (R67). -/
def State.judgePulse (s : State) (h : Fin 8) (c : Channel) (limit : Nat) (p : Pulse) : State :=
  let len := microsFrom p.first p.last
  if len < s.pminMicros then s.noisePulse h c p.first
  else if limit < len then s.stuck h
  else s.validPulse h c p

/-- An edge of a channel (R67). -/
def State.headEdge (s : State) (h : Fin 8) (c : Channel) (active : Bool) (us : Nat) : State :=
  let ch := s.heads[h].channel c
  if ch.level = active then s
  else
    let s := s.atMicros us
    if active then
      s.onHead h (HeadRec.onChannel c fun x => { x with level := true, since := some s.moment, limit := s.pmaxMicros })
    else
      let s' := s.onHead h (HeadRec.onChannel c fun x => { x with level := false, since := none })
      match ch.since with
      | none => s'
      | some t => if s.named h && !s.heads[h].failed then s'.judgePulse h c ch.limit ⟨t, s.moment⟩ else s'

/-- HEAD_CHANNEL_EDGE (R67, R72). -/
def opHeadEdge (h : Fin 8) (c : Channel) (active : Bool) (us : Nat) (s : State) : State :=
  (s.headEdge h c active us).carry h

/-- The edge that ends the pulse which channel `c` began at `t` waits at this clock value, and the pulse is no longer than the
head Pmax it is timed by: it ends before its channel can pass that length (R67, log 48). -/
def State.endsInTime (s : State) (h : Fin 8) (c : Channel) (t : Moment) : Bool :=
  s.sameMoment.any fun i =>
    match i with
    | .headChannelEdge k d false us =>
      decide (k = h ∧ d = c ∧ microsFrom t ⟨s.clock, max s.us us⟩ ≤ (s.heads[h].channel c).limit)
    | _ => false

/-- The active time of a channel of a named head in OK passes the head Pmax it is timed by: it has reached that length, and no
pulse of that length ends at this moment (R21, R67). A channel active since START is found stuck Pmax after START (R66). The
clock is read at whole milliseconds, so a channel whose active time passes Pmax inside a millisecond is found stuck at the next
(log 48). -/
def State.stuckDue (s : State) (h : Fin 8) (c : Channel) : Bool :=
  s.named h && !s.heads[h].failed &&
    match (s.heads[h].channel c).since with
    | none => false
    | some t => decide ((s.heads[h].channel c).limit ≤ microsFrom t s.moment) && !s.endsInTime h c t

/-- HEAD_STUCK (R67, R70, R72). -/
def opHeadStuck (h : Fin 8) (c : Channel) (s : State) : State := (if s.stuckDue h c then s.stuck h else s).carry h

/-- The one-channel list of a head has run out and its last COUNT said DEGRADED (R69). -/
def State.oneChannelDue (s : State) (h : Fin 8) : Bool :=
  s.named h && decide (s.heads[h].sentHealth = .degraded) && decide (s.heads[h].healthAt s.clock = .ok)

/-- ONE_CHANNEL_EXPIRY (R69, R72). -/
def opOneChannelExpiry (h : Fin 8) (s : State) : State :=
  let due := s.oneChannelDue h
  let s := s.onHead h fun r => { r with oneChannel := pruned s.clock 60000 r.oneChannel }
  (if due then s.owe h else s).carry h

/-- The heartbeat of a named head is due: 500 ms have passed since the last emission, with no change in between (R72). -/
def State.heartbeatDue (s : State) (h : Fin 8) : Bool :=
  s.named h && !s.heads[h].owed && reached (after s.heads[h].lastSent 500) s.clock

/-- HEAD_HEARTBEAT (R72). -/
def opHeartbeat (h : Fin 8) (s : State) : State := if s.heartbeatDue h then s.emit h else s

/-- 5000 ms have passed since START with a restarted flag set (R66). -/
def State.restartedDue (s : State) : Bool :=
  reached 5000 s.clock && (List.finRange 8).any fun h => s.heads[h].restarted

/-- Every head emits a COUNT in turn; one that the plan does not name emits none (R72). -/
def State.emitAll (s : State) : State := (List.finRange 8).foldl State.emit s

/-- What the heads owe carried, head by head (R72). -/
def State.carryAll (s : State) : State := (List.finRange 8).foldl State.carry s

/-- The restarted flags cleared, a change of each head that the plan names (R66, R72). -/
def State.clearRestarted (s : State) : State :=
  { s with heads := Vector.ofFn fun h => { s.heads[h] with restarted := false, owed := s.heads[h].owed || s.named h } }

/-- RESTARTED_FLAG_CLEARS (R66, R72). -/
def opRestartedClears (s : State) : State := (if s.restartedDue then s.clearRestarted else s).carryAll

/-- The conditions of RESET EQUIPMENT for a head, in their order (R71). -/
def State.resetHeadOutcome (s : State) (n : Nat) : ReplyOutcome :=
  if h : n < 8 then
    let r := s.heads[(⟨n, h⟩ : Fin 8)]
    if !s.named ⟨n, h⟩ then .refusedRange
    else if r.failed && !r.a.level && !r.b.level then .done
    else .refusedState
  else .refusedRange

/-- A head returned to OK (R71). -/
def HeadRec.restored (r : HeadRec) : HeadRec := { r with failed := false, cause := .none, oneChannel := [] }

/-- The COUNT of what the head owes, whatever waits. -/
def State.carryNow (s : State) (h : Fin 8) : State := if s.heads[h].owed then s.emit h else s

/-- The head reset: a change with a COUNT of its own, after the COUNT of what went before it (R71, R72; log 37). -/
def State.resetHead (s : State) (n : Nat) : State :=
  if h : n < 8 then
    let i : Fin 8 := ⟨n, h⟩
    (((s.carryNow i).onHead i HeadRec.restored).oweHealth i).carryNow i
  else s

end Sys2Proof.Machine
end

