-- ==== Sys2Proof/Machine/Start.lean ====
section
/-! DEFINITION. START: every record set to its START value, the plan checks, the START raises and the commands and COUNTs that
follow (R4, R17, R25 to R27, R53, R66, R73, R87, R110, R130, R144, R147, R157, R168, R170, R184, R190, R191). -/

namespace Sys2Proof.Machine

open Sys2Proof

/-! ### The Plan Store (R17, R25) -/

/-- The bytes of a block whose write START interrupted: a free mixture of the former and the new contents (R17, log 3). -/
def mixedBlock (draw : Nat) (old new : List Byte) : List Byte :=
  (indexed 0 (zipWithList Prod.mk old new)).map fun x =>
    let mask := Config.interruptedWriteMask draw x.1
    (x.2.2 &&& mask) ||| (x.2.1 &&& ~~~mask)

/-- A write that START stops (R17). -/
def State.stopWrite (s : State) : State :=
  match s.store.write with
  | none => s
  | some w =>
    let mix (m : Memory) : List Byte := mixedBlock s.draws ((List.range 64).map fun k => m.read (64 * w.block + k)) w.data
    { s.onStandby (fun x => { x with contents := x.contents.writeBlock w.block (mix x.contents) }) with
      draws := s.draws + 1 }

/-- The active bank at START (R25); the check result of an EMPTY one is NONE (log 44). -/
def Bank.startActive (station : Option Byte) (x : Bank) : Bank :=
  if x.state = .empty then { x with result := .none, planId := 0, version := 0 } else x.check station .active

/-- The standby bank at START (R25); the check result of one that START does not check again is NONE (log 44). -/
def Bank.startStandby (station : Option Byte) (x : Bank) : Bank :=
  if x.state = .checked then x.check station .checked else { x with result := .none, planId := 0, version := 0 }

/-- The Plan Store at START (R25). -/
def PlanStore.started (station : Option Byte) (st : PlanStore) : PlanStore :=
  let st := (st.onBank st.selected (Bank.startActive station)).onBank st.selected.other (Bank.startStandby station)
  let active := st.bank st.selected
  { st with pending := false, write := none, plan := if active.state = .active then some (planOf active.image) else none }

/-- The station address that the straps give (R27). -/
def stationOf (addr : Byte) : Option Byte := if 1 ≤ addr.toNat ∧ addr.toNat ≤ 239 then some addr else none

/-! ### The records (each at its rule) -/

/-- The Line Interface at START (R27). -/
def Lif.start (plan : Option Plan) (station : Option Byte) : Lif :=
  let w : Nat × Nat × Nat := match plan with | none => (4, 2, 1) | some p => (p.w2, p.w1, p.w0)
  { box := PortRec.start, field := PortRec.start, q3 := [], q2 := [], q1 := [], q0 := [], qf := [], credit2 := w.1,
    credit1 := w.2.1, credit0 := w.2.2, station := station, wrongSide := [] }

/-- A demand at START (R87). -/
def DemandRec.start : DemandRec :=
  { state := .warning, forced := true, cause := .forced, t1 := none, point := none, pointTime := none, speed := none,
    ts := some 0, warnBegan := 0, progress := 0, lastWarning := none, late := false, standing := none }

/-- The crossing record at START, before its views are read (R110). -/
def CrossingRec.start (plan : Option Plan) : CrossingRec :=
  { state := if plan.isSome then .amber else .noPlan, entered := 0, loweringStart := none,
    stateTimer := plan.map fun p => after 0 p.tAmber, exitTimer := none, exitRun := false,
    lastDir := Vector.replicate 4 none, demandView := [], islandView := [], remoteClose := false, remoteOpen := false }

/-- The Light Driver at START, before the first light command (R144, R147). -/
def Lights.start (half : Nat) : Lights :=
  { command := .dark, phase := .a, began := 0, length := half, sampled := false,
    groups := Vector.replicate 4 ⟨Lamp.start, Lamp.start, Lamp.start⟩, audible := false }

/-- A machine position at START, its levels as they stand (R157, R158, R168). -/
def MachineRec.started (plan : Option Plan) (i : Fin 4) (r : MachineRec) : MachineRec :=
  let clean (tl tt : Nat) : MachineRec :=
    { r with cmdTime := none, failTime := none, lastTravel := none, tLeave := tl, tTravel := tt }
  match plan with
  | none => (clean 5000 30000).fromDetectors 0 false
  | some p =>
    let e := p.machines[i]
    if e.present then (clean e.tLeave e.tTravel).fromDetectors 0 true else (clean e.tLeave e.tTravel).unsupervised

/-- Every record at its START value, the raises not yet made. The queue of waiting commands is the model's and stays
(log 33). -/
def State.cleared (s : State) : State :=
  let station := stationOf s.pins.addr
  let store := s.store.started station
  let plan := store.plan
  { pending := s.pending
    clock := 0
    us := 0
    draws := s.draws
    pins := s.pins
    store := store
    lif := Lif.start plan station
    dps := (dpsBefore plan).map fun e => DpRec.fresh e.side (after 0 (match plan with | none => 0 | some p => p.silence))
    heads := Vector.ofFn fun h =>
      HeadRec.start (match plan with | none => 0 | some p => p.pmax * 1000) s.heads[h].a.level s.heads[h].b.level
    sects := (sectsBefore plan).map fun _ => SectRec.fresh 0 .start
    demands := (approachesBefore plan).map fun _ => DemandRec.start
    crossing := CrossingRec.start plan
    authority := AuthorityRec.start s.authority.key
    lights := Lights.start (match plan with | none => 500 | some p => p.flashHalf)
    barrier := ⟨Vector.ofFn fun i => s.barrier.machines[i].started plan i,
      ⟨s.barrier.zone.occupied, false, none, none, false⟩⟩
    faults := match plan with
      | none => FaultTable.start true true
      | some p => FaultTable.start p.advisory p.info
    builder := ⟨none, none⟩ }

/-! ### The START raises (R190) -/

/-- The raises for the sections (R79). -/
def startSectActs (plan : Option Plan) : List FaultAct :=
  (indexed 0 (sectsBefore plan)).map fun ie => .raise .sectionDisturbed ⟨.sect, ie.1⟩ (sectClass ie.2)

/-- The raises for the machines that read FAILED; the crossing is not OPEN (R158, R165). -/
def startMachineActs (b : Barrier) : List FaultAct :=
  (List.finRange 4).flatMap fun i =>
    if b.machines[i].state = .failed then [.raise .machineFailed ⟨.machine, i.val⟩ .safety] else []

/-- The START raises, START first; the order of the rest is the model's (R190, log 11). -/
def startActs (s : State) : List FaultAct :=
  [.moment .start theCrossing .info, .raise .portDown (portSource .box) .urgent,
   .raise .portDown (portSource .field) .urgent] ++ startSectActs s.store.plan ++
  (if s.store.plan.isNone then [.raise .crossingNoPlan theCrossing .safety] else []) ++ startMachineActs s.barrier ++
  (if s.pins.battLow then [.raise .batteryLow ⟨.cabinet, 0⟩ .advisory] else []) ++
  (if s.pins.mainsOff then [.raise .mainsOff ⟨.cabinet, 0⟩ .advisory] else [])

/-! ### What the Sequence Controller hands out at START -/

/-- LOWER sent to all four positions (R127). -/
def State.lowerAll (s : State) : State := (List.finRange 4).foldl (fun s i => s.sendMachine i .lower) s

/-- The views, the light command, the audible command and the machine commands of the START state (R110, R111, R127,
R144). -/
def State.startOutputs (s : State) : State :=
  let s := { s with crossing := { s.crossing with demandView := s.demandsNow, islandView := s.islandsNow } }
  let s := match s.crossing.state.light with
    | none => s
    | some l => s.lightCommand l
  let s := s.audibleCommand s.crossing.state.sounds
  if s.crossing.state = .noPlan then s.lowerAll else s

/-- START (R4). -/
def startPart (s : State) : State :=
  let s := s.stopWrite.cleared
  ((s.report (startActs s)).startOutputs).emitAll

end Sys2Proof.Machine
end

