-- ==== Sys2Proof/Machine/Commands.lean ====
section
/-! DEFINITION. The Status and Command Unit: the command decoder, one operation for each command of the box, and READ (R81,
R71, R121, R135 to R142, R154, R167, R183, R186, R188, R189, R192 to R194). Each operation takes the command's tag and argument
bytes and offers its REPLY to the signal box. -/

namespace Sys2Proof.Machine

open Sys2Proof

/-! ### Reports -/

/-- ACK REPORT (R186); what the DONE of an acknowledgement that releases a latched record carries is log 42. -/
def cmdAckReport (tag slot change : Byte) (s : State) : State :=
  if 63 < slot.toNat then s.reply 0 tag .refusedRange .none
  else
    match s.faults.get slot.toNat with
    | none => s.reply 0 tag .refusedState .none
    | some r =>
      if r.change ≠ change then s.reply 0 tag .refusedState (.stale slot.toNat r.change)
      else if r.report = .acked then s.reply 0 tag .done (.ack slot.toNat change .acked)
      else
        let t := s.faults.acknowledge s.clock slot.toNat
        let shown := match t.get slot.toNat with
          | none => ReportState.acked
          | some r => r.report
        State.reply { s with faults := t } 0 tag .done (.ack slot.toNat change shown)

/-- REPORTS START (R188). -/
def cmdReportsStart (tag : Byte) (s : State) : State :=
  let t := if s.faults.process = .running then s.faults else s.faults.resume
  State.reply { s with faults := t } 0 tag .done (.process .running)

/-- REPORTS STOP (R188). -/
def cmdReportsStop (tag : Byte) (s : State) : State :=
  State.reply { s with faults := s.faults.hold .stopped } 0 tag .done (.process .stopped)

/-- CLASS ENABLE (R183, R192). -/
def cmdClassEnable (tag cls value : Byte) (s : State) : State :=
  if 1 < cls.toNat ∨ 1 < value.toNat then s.reply 0 tag .refusedRange .none
  else
    let on := decide (value.toNat = 1)
    let t := if cls.toNat = 1 then { s.faults with advisory := on } else { s.faults with info := on }
    State.reply { s with faults := t } 0 tag .done (.enables t.advisory t.info)

/-- CLEAR ACKED (R189). -/
def cmdClearAcked (tag : Byte) (s : State) : State :=
  State.reply { s with faults := s.faults.clearAcked s.clock } 0 tag .done (.freed s.faults.spentSlots.length)

/-! ### Sections and equipment -/

/-- RESTORE SECTION (R81, R82, R84). -/
def cmdRestoreSection (tag index mode : Byte) (s : State) : State :=
  match s.restoreOutcome index.toNat mode.toNat with
  | .done =>
    (s.restoreSection index.toNat mode.toNat).reply 0 tag .done
      (.sect index.toNat (if mode.toNat = 0 then .restoring else .clear))
  | o => s.reply 0 tag o .none

/-- RESET EQUIPMENT of a lamp (R154, R192). -/
def cmdResetLamp (tag index : Byte) (s : State) : State :=
  match lampOf index.toNat with
  | none => s.reply 0 tag .refusedRange .none
  | some (g, k) =>
    if !s.groupPresent g then s.reply 0 tag .refusedRange .none
    else if !(s.lights.groups[g].lamp k).isFailed then s.reply 0 tag .refusedState .none
    else (s.setLights (s.lights.setLamp g k Lamp.wasReset)).reply 0 tag .done (.lamp .unknown)

/-- The conditions of RESET EQUIPMENT for a machine, in their order (R167). -/
def State.resetMachineOutcome (s : State) (i : Fin 4) : ReplyOutcome :=
  let r := s.barrier.machines[i]
  if !s.machinePresent i then .refusedRange
  else if r.state ≠ .failed then .refusedState
  else if r.boom && !(r.up && r.down) then .done
  else .refusedState

/-- The direction of the crossing state sent again to a machine that has left FAILED (R112). -/
def State.sendAgain (s : State) (i : Fin 4) : State :=
  match s.crossing.state.direction (s.role i) with
  | none => s
  | some d => s.sendMachine i d

/-- A FAILED machine returned to service (R167, R166, R112). -/
def State.resetMachine (s : State) (i : Fin 4) : State :=
  let s := s.setMachine i (s.barrier.machines[i].fromDetectors s.clock true)
  ((s.clear .machineFailed ⟨.machine, i.val⟩).sendAgain i).machineTold i

/-- RESET EQUIPMENT of a machine (R167, R192). -/
def cmdResetMachine (tag index : Byte) (s : State) : State :=
  if h : index.toNat < 4 then
    let i : Fin 4 := ⟨index.toNat, h⟩
    match s.resetMachineOutcome i with
    | .done =>
      (s.resetMachine i).reply 0 tag .done (.machine (s.barrier.machines[i].fromDetectors s.clock true).state)
    | o => s.reply 0 tag o .none
  else s.reply 0 tag .refusedRange .none

/-- RESET EQUIPMENT of a head (R71, R192). -/
def cmdResetHead (tag index : Byte) (s : State) : State :=
  match s.resetHeadOutcome index.toNat with
  | .done => (s.resetHead index.toNat).reply 0 tag .done .none
  | o => s.reply 0 tag o .none

/-! ### Authority -/

/-- DONE with the owner and the lock after the command (R135 to R137). -/
def State.replyOwner (s : State) (tag : Byte) : State := s.reply 0 tag .done (.ownerLock s.authority.owner s.locked)

/-- The authority record changed by a request or an enable, with the auction when it has changed (R133). -/
def State.requests (s : State) (f : AuthorityRec → AuthorityRec) : State :=
  if f s.authority = s.authority then s else State.auction { s with authority := f s.authority }

/-- REMOTE REQUEST (R135). -/
def cmdRemoteRequest (tag : Byte) (s : State) : State :=
  if s.remoteEnable then (s.requests fun a => { a with remoteRequest := true }).replyOwner tag
  else s.reply 0 tag .refusedState .none

/-- REMOTE RELEASE (R135). -/
def cmdRemoteRelease (tag : Byte) (s : State) : State :=
  (s.requests fun a => { a with remoteRequest := false }).replyOwner tag

/-- TEST REQUEST (R136). -/
def cmdTestRequest (tag : Byte) (s : State) : State :=
  if s.testEnable then (s.requests fun a => { a with testRequest := true }).replyOwner tag
  else s.reply 0 tag .refusedState .none

/-- TEST RELEASE (R136). -/
def cmdTestRelease (tag : Byte) (s : State) : State :=
  (s.requests fun a => { a with testRequest := false }).replyOwner tag

/-- LOCAL RELEASE (R137). -/
def cmdLocalRelease (tag : Byte) (s : State) : State :=
  if s.par false Plan.panelFitted then (s.requests fun a => { a with localRelease := true }).replyOwner tag
  else s.reply 0 tag .refusedState .none

/-- LOCAL WITHDRAW (R137). -/
def cmdLocalWithdraw (tag : Byte) (s : State) : State :=
  (s.requests fun a => { a with localRelease := false }).replyOwner tag

/-- REMOTE CLOSE (R139, R121). -/
def cmdRemoteClose (tag : Byte) (s : State) : State :=
  if s.authority.owner = .remote then
    let s := State.causesChanged { s with crossing := { s.crossing with remoteClose := true, remoteOpen := false } }
    s.reply 0 tag .done (.crossing s.crossing.state)
  else s.reply 0 tag .refusedState .none

/-- REMOTE OPEN (R139, R121). -/
def cmdRemoteOpen (tag : Byte) (s : State) : State :=
  if s.authority.owner = .remote ∧ s.crossing.state.isClosed then
    let s := State.causesChanged { s with crossing := { s.crossing with remoteClose := false, remoteOpen := true } }
    s.reply 0 tag .done (.crossing s.crossing.state)
  else s.reply 0 tag .refusedState .none

/-! ### Test steps (R140 to R142) -/

/-- The step a TEST STEP names: conditions 1 and 2 of R140 (R140, R192). -/
def State.stepNamed (s : State) (step machine : Nat) : Option Step :=
  if step = 0 then some .lampTest
  else if step = 1 then
    if h : machine < 4 then if s.machinePresent ⟨machine, h⟩ then some (.machineCycle ⟨machine, h⟩) else none else none
  else none

/-- The rest of the conditions of R140 for a named step, in their order. -/
def State.stepOutcome (s : State) : Step → ReplyOutcome
  | .machineCycle i =>
    if s.crossing.state ≠ .opened then .refusedState
    else if !s.demands.all fun d => decide (d.state = .idle) then .refusedState
    else if s.barrier.machines[i].state ≠ .upProved then .refusedState
    else if s.role i = .exit ∧ s.barrier.zone.occupied then .refusedState
    else .done
  | _ =>
    if !(List.finRange 4).any s.groupPresent then .refusedRange
    else if s.crossing.state ≠ .opened then .refusedState
    else if !s.demands.all fun d => decide (d.state = .idle) then .refusedState
    else .done

/-- A test step begun: TEST_ACTIVE, then what the step lights and moves (R125, R140 to R142). -/
def State.beginStep (s : State) (tag : Byte) (st : Step) : State :=
  let s := s.enter .testActive
  match st with
  | .machineCycle i =>
    let s := { s with authority := { s.authority with step := st, phase := .lowering, stepEnd := none, outcome := .none,
                                                      stepTag := tag } }
    (s.lightCommand .flash).sendMachine i .lower
  | _ =>
    let s := { s with authority := { s.authority with step := st, phase := .flashing, outcome := .none, stepTag := tag,
                                                      stepEnd := some (after s.clock (10 * s.flashHalf)) } }
    s.lightCommand .amberFlash

/-- TEST STEP (R139, R140). -/
def cmdTestStep (tag step machine : Byte) (s : State) : State :=
  if s.authority.owner ≠ .test then s.reply 0 tag .refusedState .none
  else
    match s.stepNamed step.toNat machine.toNat with
    | none => s.reply 0 tag .refusedRange .none
    | some st =>
      match s.stepOutcome st with
      | .done => (s.beginStep tag st).reply 0 tag .done (.step st)
      | o => s.reply 0 tag o .none

/-! ### Isolation (R194) -/

/-- PORT ISOLATE (R194, R31). -/
def cmdPortIsolate (tag : Byte) (s : State) : State :=
  if s.lif.field.state = .isolated then s.reply 0 tag .refusedState .none
  else s.isolate.reply 0 tag .done (.port .isolated)

/-- PORT RESTORE (R194, R31). -/
def cmdPortRestore (tag : Byte) (s : State) : State :=
  if s.lif.field.state = .isolated then s.restorePort.reply 0 tag .done (.port .down)
  else s.reply 0 tag .refusedState .none

/-! ### Readback (R193) -/

/-- The records of the table in a report state (R184). -/
def FaultTable.inState (t : FaultTable) (st : ReportState) : Nat :=
  ((List.range 64).filter fun n =>
    match t.get n with
    | none => false
    | some r => decide (r.report = st)).length

/-- The fields of a DP record (R53). -/
def DpRec.fields (r : DpRec) : List Field :=
  [.dpState r.state, .flag r.baseline, .number r.seq.toNat, .number r.inc, .number r.dec, .health r.health,
   .flag r.restart, .side r.port, .time r.lastTime, .optTime r.deadline, .number r.missed, .number r.deltaInc,
   .number r.deltaDec, .optTime r.lastEvent]

/-- The fields of a head record (R66). -/
def HeadRec.fields (r : HeadRec) : List Field :=
  [.flag r.failed, .headCause r.cause, .number r.inc, .number r.dec, .times r.oneChannel, .channel r.a.since r.a.last,
   .channel r.b.since r.b.last, .unpaired r.a.unpaired r.b.unpaired, .number r.seq.toNat, .flag r.restarted,
   .optTime r.earliest, .time r.lastSent, .health r.sentHealth]

/-- The fields of a section record, then the section's id, track and kind (R73). -/
def SectRec.fields (r : SectRec) (e : SectionEntry) : List Field :=
  [.sectState r.state, .number r.count, .sectCause r.cause, .time r.disturbedAt, .restore r.restored, .number r.balance,
   .number r.inTotal, .number r.outTotal, .flag r.entered, .flag r.left, .number e.id, .number e.track, .sectKind e.kind]

/-- The fields of a demand record, then the approach's track and direction (R87). -/
def DemandRec.fields (r : DemandRec) (e : ApproachEntry) : List Field :=
  [.demandState r.state, .flag r.forced, .warnCause r.cause, .optTime r.t1, .optNumber r.point, .optTime r.pointTime,
   .optNumber r.speed, .optTime r.ts, .time r.warnBegan, .time r.progress, .optNumber r.lastWarning, .flag r.late,
   .number e.track, .countDir e.dir]

/-- The fields of the crossing record, the derived ones among them (R110). -/
def State.crossingFields (s : State) : List Field :=
  let r := s.crossing
  [.crossingState r.state, .time r.entered, .optTime r.loweringStart, .optTime r.stateTimer, .optTime r.exitTimer,
   .directions r.lastDir.toList, .demandView r.demandView, .islandView r.islandView, .flag r.remoteClose,
   .flag r.remoteOpen, .causes s.causes, .flag s.machineFailed, .flag s.protect]

/-- The fields of the authority record, the lock among them, then the derived enables in the order of their owners' priority
(R130, R131). -/
def State.authorityFields (s : State) : List Field :=
  let r := s.authority
  [.owner r.owner, .owner r.prior, .time r.changed, .flag r.remoteRequest, .flag r.testRequest, .flag r.key,
   .flag r.localRelease, .flag s.locked, .step r.step, .stepPhase r.phase, .optTime r.stepEnd, .stepOutcome r.outcome,
   .number r.stepTag.toNat, .flag s.localEnable, .flag s.remoteEnable, .flag s.testEnable]

/-- The fields of a lamp record (R144). -/
def Lamp.fields (r : Lamp) : List Field :=
  [.lampState r.state, .number r.good, .number r.bad, .optNumber r.last, .sampleKind r.kind, .flag r.driven,
   .flag r.enabled, .flag r.lit, .optNumber r.dark]

/-- The group state and its three lamp states (R193). -/
def LightGroup.fields (g : LightGroup) : List Field :=
  [.groupState g.state, .lampState g.amber.state, .lampState g.redA.state, .lampState g.redB.state]

/-- The fields of the zone record (R170). -/
def ZoneRec.fields (z : ZoneRec) : List Field :=
  [.flag z.occupied, .flag z.waiting, .optTime z.holdStart, .optTime z.holdBy, .flag z.condition]

/-- The fields of a machine record, its role, and the zone record; the limits in force are those of the plan entry while the
position is present (R157). -/
def MachineRec.fields (r : MachineRec) (role : Role) (z : ZoneRec) : List Field :=
  [.machineState r.state, .optDir r.commanded, .optDir r.drive, .optTime r.cmdTime, .flag r.leaveMet, .optTime r.leaveBy,
   .optTime r.travelBy, .flag r.up, .flag r.down, .flag r.boom, .machineCause r.cause, .optTime r.failTime,
   .optNumber r.lastTravel, .number r.tLeave, .number r.tTravel, .role role] ++ z.fields

/-- The fields of a fault record (R172). -/
def FaultRec.fields (r : FaultRec) : List Field :=
  [.faultCode r.code, .source r.source, .faultClass r.cls, .flag r.active, .flag r.srcActive, .reportState r.report,
   .number r.change.toNat, .number r.raises, .number r.level, .optTime r.drain, .flag r.latched, .time r.first,
   .time r.last, .number r.age, .number r.resend, .optTime r.ackBy]

/-- The report process record, then the number of records PENDING, SENT and ACKED and the size of the pending set of SAFETY,
URGENT, ADVISORY and INFO (R184); the order inside each of the two is log 5. -/
def FaultTable.fields (t : FaultTable) : List Field :=
  [.process t.process, .numbers t.window, .number t.timeouts, .flag t.advisory, .flag t.info,
   .number (t.inState .pending), .number (t.inState .sent), .number (t.inState .acked),
   .number (t.pendingSet .safety).length, .number (t.pendingSet .urgent).length, .number (t.pendingSet .advisory).length,
   .number (t.pendingSet .info).length]

/-- The line counters in the order of their table (R46). -/
def Counters.fields (c : Counters) : List Field :=
  [.number c.received, .number c.errors, .number c.loops, .number c.checking, .number c.consumed, .number c.refusedSource,
   .number c.unexpected, .number c.overHop, .number c.relayed, .number c.delivered, .number c.wrongSide,
   .number c.notActive, .number c.full, .number c.replaced, .number c.emptied, .number c.transmitted]

/-- The fields of a port: state, polarity, both conditions, queue fill levels, counters (R27, R46, R193). -/
def State.portFields (s : State) (p : Port) : List Field :=
  let r := s.port p
  let fills := match p with
    | .box => [s.lif.q3.length, s.lif.q2.length, s.lif.q1.length, s.lif.q0.length]
    | .field => [s.lif.qf.length]
  [.portState r.state, .flag r.inverted, .flag r.lineErrors, .flag r.lineLoop, .numbers fills] ++ r.counters.fields

/-- The fields of a bank's plan header: the bank's state with the states of the standby and the active bank, which READ of
either bank's header shows (R15, R17), check result, whether it is the active bank, activation flag, write record, and the
header fields as stored (R193). -/
def State.bankFields (s : State) (which : BankId) : List Field :=
  let x := s.store.bank which
  [.bankState x.state, .bankState s.store.standby.state, .bankState (s.store.bank s.store.selected).state,
   .checkResult x.result, .flag (decide (which = s.store.selected)), .flag s.store.pending,
   .writeRecord (s.store.write.map fun w => (w.block, w.tag)), .number (u16 x.image 0), .number (u8 x.image 2),
   .number (declaredOf x.image), .number (crcField x.image).toNat]

/-- READ of a group or a machine position 0..3, when it is present. -/
def presentAt (present : Fin 4 → Bool) (n : Nat) (f : Fin 4 → List Field) : Option (List Field) :=
  if h : n < 4 then if present ⟨n, h⟩ then some (f ⟨n, h⟩) else none else none

/-- What READ returns of an object, the record's fields in the order of the record's table; none is REFUSED_RANGE (R193). -/
def State.readback (s : State) (kind n : Nat) : Option (List Field) :=
  match kind with
  | 0 => (s.dps[n]?).map DpRec.fields
  | 1 => if h : n < 8 then some s.heads[(⟨n, h⟩ : Fin 8)].fields else none
  | 2 =>
    match s.sects[n]?, s.sectTable[n]? with
    | some r, some e => some (r.fields e)
    | _, _ => none
  | 3 =>
    match s.demands[n]?, s.approachTable[n]? with
    | some r, some e => some (r.fields e)
    | _, _ => none
  | 4 => if n = 0 then some s.crossingFields else none
  | 5 => if n = 0 then some s.authorityFields else none
  | 6 =>
    match lampOf n with
    | some (g, k) => if s.groupPresent g then some (s.lights.groups[g].lamp k).fields else none
    | none => none
  | 7 => presentAt s.groupPresent n fun g => s.lights.groups[g].fields
  | 8 => presentAt s.machinePresent n fun i => s.barrier.machines[i].fields (s.role i) s.barrier.zone
  | 9 =>
    if n ≤ 63 then
      match s.faults.get n with
      | none => some [.slotFree]
      | some r => some r.fields
    else none
  | 10 => if n = 0 then some s.faults.fields else none
  | 11 => if n = 0 then some (s.portFields .box) else if n = 1 then some (s.portFields .field) else none
  | 12 => if n = 0 then some (s.bankFields .a) else if n = 1 then some (s.bankFields .b) else none
  | _ => none

/-- READ (R193). -/
def cmdRead (tag kind index : Byte) (s : State) : State :=
  match s.readback kind.toNat index.toNat with
  | none => s.reply 0 tag .refusedRange .none
  | some d => s.reply 0 tag .done (.read d)

/-! ### The decoder (R192) -/

/-- Arguments of a given length: none is REFUSED_RANGE (R192). -/
def args0 (c : BoxCommand) : List Byte → Option BoxCommand
  | [] => some c
  | _ => none

def args2 (f : Byte → Byte → Option BoxCommand) : List Byte → Option BoxCommand
  | [x, y] => f x y
  | _ => none

/-- RESET EQUIPMENT read: the kind, and the index in the range of its kind (R192). -/
def resetCommand (kind index : Byte) : Option BoxCommand :=
  match kind.toNat with
  | 0 => if index.toNat ≤ 11 then some (.resetLamp index) else none
  | 1 => if index.toNat ≤ 3 then some (.resetMachine index) else none
  | 2 => if index.toNat ≤ 7 then some (.resetHead index) else none
  | _ => none

/-- PLAN ACTIVATE read: plan id in two bytes, then the version (R192). -/
def activateCommand : List Byte → Option BoxCommand
  | [hi, lo, v] => some (.planActivate (hi ++ lo) v)
  | _ => none

/-- The reader of the arguments of a name code; none is an unrecognised name (R192). -/
def commandReader (name : Nat) : Option (List Byte → Option BoxCommand) :=
  match name with
  | 1 => some (args2 fun x y => some (.ackReport x y))
  | 2 => some (args0 .reportsStart)
  | 3 => some (args0 .reportsStop)
  | 4 => some (args2 fun x y => some (.classEnable x y))
  | 5 => some (args2 fun x y => some (.restoreSection x y))
  | 6 => some (args2 resetCommand)
  | 7 => some (args0 .remoteRequest)
  | 8 => some (args0 .remoteRelease)
  | 9 => some (args0 .remoteClose)
  | 10 => some (args0 .remoteOpen)
  | 11 => some (args0 .localRelease)
  | 12 => some (args0 .localWithdraw)
  | 13 => some (args0 .testRequest)
  | 14 => some (args0 .testRelease)
  | 15 => some (args2 fun x y => some (.testStep x y))
  | 16 => some fun l => some (.planBlock l)
  | 17 => some (args0 .planCheck)
  | 18 => some activateCommand
  | 19 => some (args0 .planCancel)
  | 20 => some (args0 .portIsolate)
  | 21 => some (args0 .portRestore)
  | 22 => some (args0 .clearAcked)
  | 23 => some (args2 fun x y => some (.read x y))
  | _ => none

/-- A command of the box carried out by the block that owns it (R192). -/
def runCommand (tag : Byte) (c : BoxCommand) (s : State) : State :=
  match c with
  | .ackReport x y => cmdAckReport tag x y s
  | .reportsStart => cmdReportsStart tag s
  | .reportsStop => cmdReportsStop tag s
  | .classEnable x y => cmdClassEnable tag x y s
  | .restoreSection x y => cmdRestoreSection tag x y s
  | .resetLamp x => cmdResetLamp tag x s
  | .resetMachine x => cmdResetMachine tag x s
  | .resetHead x => cmdResetHead tag x s
  | .remoteRequest => cmdRemoteRequest tag s
  | .remoteRelease => cmdRemoteRelease tag s
  | .remoteClose => cmdRemoteClose tag s
  | .remoteOpen => cmdRemoteOpen tag s
  | .localRelease => cmdLocalRelease tag s
  | .localWithdraw => cmdLocalWithdraw tag s
  | .testRequest => cmdTestRequest tag s
  | .testRelease => cmdTestRelease tag s
  | .testStep x y => cmdTestStep tag x y s
  | .planBlock l => cmdPlanBlock tag l s
  | .planCheck => cmdPlanCheck tag s
  | .planActivate i v => cmdPlanActivate tag i.toNat v.toNat s
  | .planCancel => cmdPlanCancel tag s
  | .portIsolate => cmdPortIsolate tag s
  | .portRestore => cmdPortRestore tag s
  | .clearAcked => cmdClearAcked tag s
  | .read x y => cmdRead tag x y s

/-- The body of a COMMAND taken by the decoder (R192). -/
def decodeAndRun (body : List Byte) (s : State) : State :=
  match body with
  | name :: tag :: args =>
    match commandReader name.toNat with
    | none => s.reply 0 tag .unknown .none
    | some read =>
      match read args with
      | none => s.reply 0 tag .refusedRange .none
      | some c => runCommand tag c s
  | _ => s

/-- The Report Engine told that the box has been heard (R37, R188). -/
def State.hear (s : State) : State := { s with faults := s.faults.boxHeard }

/-- A command that the Line Interface has passed to the decoder: heard, then taken (R37, R192; log 35). -/
def boxCommand (run : State → State) (s : State) : State := run s.hear

end Sys2Proof.Machine
end

