-- ==== Sys2Proof/Machine/Receive.lean ====
section
/-! DEFINITION. A received telegram through the checks of the Line Interface (R29, R33 to R40). -/

namespace Sys2Proof.Machine

open Sys2Proof

/-- The port opposite. -/
def otherPort : Port → Port
  | .box => .field
  | .field => .box

/-- The side a port is, in a DP entry. -/
def sideOf : Port → Side
  | .box => .box
  | .field => .field

/-- The source of a telegram that fails check 2: the part's own address or a local head's virtual address (R35). -/
def State.loops (s : State) (src : Byte) : Bool :=
  decide (s.lif.station = some src) || s.dpTable.any fun e => decide (e.source = .head ∧ e.address = src)

/-- A telegram addressed to the part (R36). -/
def State.consume (s : State) (p : Port) (t : Telegram) : State :=
  if t.kind ≠ kindCommand then s.count p fun c => { c with unexpected := up16 c.unexpected }
  else if p = .box ∧ t.src = 0 then
    decodeAndRun t.body (s.count .box fun c => { c with consumed := up16 c.consumed })
  else
    (s.count p fun c => { c with refusedSource := up16 c.refusedSource }).reply t.src (t.body.getD 1 0) .refusedSource .none

/-- The copy that is relayed (R38). -/
def State.relayCopy (s : State) (t : Telegram) : Waiting :=
  ⟨t.dest, t.src, .relayed t.kind t.body, .relay t.hops t.age s.moment⟩

/-- The class of a copy that leaves by the box port (R38). -/
def relayClass (t : Telegram) : Nat := if t.kind = kindCount then 3 else 1

/-- A relayed copy would be accepted. -/
def State.relayAccepted (s : State) (p : Port) (t : Telegram) : Bool :=
  match p with
  | .box => s.fieldAccepts
  | .field => s.boxAccepts (relayClass t)

/-- A telegram relayed to the other port, or discarded as over-hop (R38). -/
def State.relay (s : State) (p : Port) (t : Telegram) : State :=
  if t.hops.toNat = 15 then s.count p fun c => { c with overHop := up16 c.overHop }
  else
    let s' := match p with
      | .box => s.offerField (s.relayCopy t)
      | .field => s.offerBox (relayClass t) (s.relayCopy t)
    if s.relayAccepted p t then s'.count p fun c => { c with relayed := up16 c.relayed } else s'

/-- The index of the line DP entry of an address (R39). -/
def lineDpOf (table : List DpEntry) (src : Byte) : Option Nat :=
  indexWhere (fun e => decide (e.source = .line ∧ e.address = src)) 0 table

/-- The event time of the earliest axle by the arrival age, UNTIMED at 255 (R60). -/
def eventTime (arrival : Time) (age : Byte) : Option Time := if age.toNat = 255 then none else some (before arrival age.toNat)

/-- A COUNT delivered to its record, off the wrong-side set when it stood there (R39, R40). -/
def State.deliverLine (s : State) (p : Port) (i : Nat) (t : Telegram) (body : CountBody) : State :=
  let s := if s.lif.wrongSide.contains t.src then
      State.clear { s with lif := { s.lif with wrongSide := s.lif.wrongSide.filter fun a => decide (a ≠ t.src) } }
        .dpWrongSide (dpSource i)
    else s
  (s.count p fun c => { c with delivered := up16 c.delivered }).deliver i
    ⟨body, s.clock, sideOf p, eventTime s.clock t.age⟩

/-- A COUNT on the wrong port (R40). -/
def State.wrongSide (s : State) (p : Port) (i : Nat) (src : Byte) : State :=
  let s := s.count p fun c => { c with wrongSide := up16 c.wrongSide }
  if s.lif.wrongSide.contains src then s
  else
    State.raise { s with lif := { s.lif with wrongSide := s.lif.wrongSide ++ [src] } } .dpWrongSide (dpSource i) .urgent

/-- Check 5: a COUNT of a line DP of the plan, delivered or on the wrong side (R39, R40). -/
def State.checkDp (s : State) (p : Port) (t : Telegram) : State :=
  match lineDpOf s.dpTable t.src, countOf t.body with
  | some i, some body =>
    match s.dpTable[i]? with
    | none => s
    | some e => if e.side = sideOf p then s.deliverLine p i t body else s.wrongSide p i t.src
  | _, _ => s

/-- Checks 3 to 5 on an ACTIVE port, the box heard first (R33, R36 to R40). -/
def State.passOn (s : State) (p : Port) (t : Telegram) : State :=
  let s := if p = .box ∧ t.src = 0 then s.hear else s
  if s.lif.station = some t.dest then s.consume p t
  else if t.kind = kindCount then (s.relay p t).checkDp p t
  else s.relay p t

/-- A telegram that has passed check 1: counted and line activity, then check 2 (R28, R29, R33, R35). -/
def State.accept (s : State) (p : Port) (t : Telegram) : State :=
  let active := decide ((s.port p).state = .active)
  let s := (s.count p fun c => { c with received := up16 c.received }).activity p
  if s.loops t.src then s.loopDiscard p
  else if active then s.passOn p t
  else s.count p fun c => { c with checking := up16 c.checking }

/-- TELEGRAM_RECEIVED (R33). An ISOLATED port ignores its receive pair (R31). -/
def opTelegram (p : Port) (bytes : List Byte) (us : Nat) (s : State) : State :=
  if (s.port p).state = .isolated then s
  else
    let s := s.atMicros us
    match Telegram.check bytes with
    | none => s.formatFailure p
    | some t => s.accept p t

end Sys2Proof.Machine
end

