-- ==== Sys2Proof/Machine/Settle.lean ====
section
/-! DEFINITION. The end of every step: what follows from whatever the command did. A pending activation whose condition the
last change of the step has made hold is swapped (R20; after the earlier events of a COUNT the Plan Store has looked already,
`State.handOn`), reports are taken (R185), one STATUS is built when its content has changed (R191), idle transmitters
take their next telegrams (R43, R44), and the room that leaves in class 2 is used (R43, R185). Log 10. -/

namespace Sys2Proof.Machine

open Sys2Proof

/-- What follows a command when no swap is due: reports, STATUS, transmission, reports again. -/
def State.finish (s : State) : State := s.selectReports.statusIfChanged.startSending.selectReports

/-- The end of every step. -/
def State.settle (s : State) : State := s.swapIfDue.finish

/-- A step whose command has the effect `op`. -/
def completes (op : State → State) (s : State) : Host.Outcome State Fault Refusal := .next (op s).settle

end Sys2Proof.Machine
end

