-- ==== Sys2Proof/Machine/BoxCommands.lean ====
section
/-! DEFINITION. The meanings of the commands of the signal box: each is heard, carried out by the block that owns it, and the
step completed (R37, R192). -/

namespace Sys2Proof.Machine

open Sys2Proof

/-- ACK_REPORT (R186). -/
def execAckReport (tag slot change : Byte) (s : State) : Host.Outcome State Fault Refusal :=
  completes (boxCommand (cmdAckReport tag slot change)) s

/-- REPORTS_START (R188). -/
def execReportsStart (tag : Byte) (s : State) : Host.Outcome State Fault Refusal :=
  completes (boxCommand (cmdReportsStart tag)) s

/-- REPORTS_STOP (R188). -/
def execReportsStop (tag : Byte) (s : State) : Host.Outcome State Fault Refusal :=
  completes (boxCommand (cmdReportsStop tag)) s

/-- CLASS_ENABLE (R183). -/
def execClassEnable (tag cls value : Byte) (s : State) : Host.Outcome State Fault Refusal :=
  completes (boxCommand (cmdClassEnable tag cls value)) s

/-- RESTORE_SECTION (R81). -/
def execRestoreSection (tag index mode : Byte) (s : State) : Host.Outcome State Fault Refusal :=
  completes (boxCommand (cmdRestoreSection tag index mode)) s

/-- RESET_EQUIPMENT_LAMP (R154). -/
def execResetEquipmentLamp (tag index : Byte) (s : State) : Host.Outcome State Fault Refusal :=
  completes (boxCommand (cmdResetLamp tag index)) s

/-- RESET_EQUIPMENT_MACHINE (R167). -/
def execResetEquipmentMachine (tag index : Byte) (s : State) : Host.Outcome State Fault Refusal :=
  completes (boxCommand (cmdResetMachine tag index)) s

/-- RESET_EQUIPMENT_HEAD (R71). -/
def execResetEquipmentHead (tag index : Byte) (s : State) : Host.Outcome State Fault Refusal :=
  completes (boxCommand (cmdResetHead tag index)) s

/-- REMOTE_REQUEST (R135). -/
def execRemoteRequest (tag : Byte) (s : State) : Host.Outcome State Fault Refusal :=
  completes (boxCommand (cmdRemoteRequest tag)) s

/-- REMOTE_RELEASE (R135). -/
def execRemoteRelease (tag : Byte) (s : State) : Host.Outcome State Fault Refusal :=
  completes (boxCommand (cmdRemoteRelease tag)) s

/-- REMOTE_CLOSE (R121, R139). -/
def execRemoteClose (tag : Byte) (s : State) : Host.Outcome State Fault Refusal :=
  completes (boxCommand (cmdRemoteClose tag)) s

/-- REMOTE_OPEN (R121, R139). -/
def execRemoteOpen (tag : Byte) (s : State) : Host.Outcome State Fault Refusal :=
  completes (boxCommand (cmdRemoteOpen tag)) s

/-- LOCAL_RELEASE (R137). -/
def execLocalRelease (tag : Byte) (s : State) : Host.Outcome State Fault Refusal :=
  completes (boxCommand (cmdLocalRelease tag)) s

/-- LOCAL_WITHDRAW (R137). -/
def execLocalWithdraw (tag : Byte) (s : State) : Host.Outcome State Fault Refusal :=
  completes (boxCommand (cmdLocalWithdraw tag)) s

/-- TEST_REQUEST (R136). -/
def execTestRequest (tag : Byte) (s : State) : Host.Outcome State Fault Refusal :=
  completes (boxCommand (cmdTestRequest tag)) s

/-- TEST_RELEASE (R136). -/
def execTestRelease (tag : Byte) (s : State) : Host.Outcome State Fault Refusal :=
  completes (boxCommand (cmdTestRelease tag)) s

/-- TEST_STEP (R139, R140). -/
def execTestStep (tag step machine : Byte) (s : State) : Host.Outcome State Fault Refusal :=
  completes (boxCommand (cmdTestStep tag step machine)) s

/-- PLAN_BLOCK (R16). -/
def execPlanBlock (tag : Byte) (args : List Byte) (s : State) : Host.Outcome State Fault Refusal :=
  completes (boxCommand (cmdPlanBlock tag args)) s

/-- PLAN_CHECK (R18). -/
def execPlanCheck (tag : Byte) (s : State) : Host.Outcome State Fault Refusal :=
  completes (boxCommand (cmdPlanCheck tag)) s

/-- PLAN_ACTIVATE (R19). -/
def execPlanActivate (tag : Byte) (planId : BitVec 16) (version : Byte) (s : State) : Host.Outcome State Fault Refusal :=
  completes (boxCommand (cmdPlanActivate tag planId.toNat version.toNat)) s

/-- PLAN_CANCEL (R24). -/
def execPlanCancel (tag : Byte) (s : State) : Host.Outcome State Fault Refusal :=
  completes (boxCommand (cmdPlanCancel tag)) s

/-- PORT_ISOLATE (R194). -/
def execPortIsolate (tag : Byte) (s : State) : Host.Outcome State Fault Refusal :=
  completes (boxCommand (cmdPortIsolate tag)) s

/-- PORT_RESTORE (R194). -/
def execPortRestore (tag : Byte) (s : State) : Host.Outcome State Fault Refusal :=
  completes (boxCommand (cmdPortRestore tag)) s

/-- CLEAR_ACKED (R189). -/
def execClearAcked (tag : Byte) (s : State) : Host.Outcome State Fault Refusal :=
  completes (boxCommand (cmdClearAcked tag)) s

/-- READ (R193). -/
def execRead (tag kind index : Byte) (s : State) : Host.Outcome State Fault Refusal :=
  completes (boxCommand (cmdRead tag kind index)) s

end Sys2Proof.Machine
end

