-- ==== Sys2Proof/Machine/Tick.lean ====
section
/-! DEFINITION. The tick of the crossing clock, which is what a step does on an empty queue: one millisecond passes and the time
events that have fallen due enter the queue, in an order that the spec leaves open (R1; logs 1, 4). Every test of an event
being due is the one its own meaning makes. -/

namespace Sys2Proof.Machine

open Sys2Proof

/-! ### One millisecond -/

/-- The lists of times of a port without the times that have left them (R34, R35). -/
def PortRec.prune (now : Time) (r : PortRec) : PortRec :=
  { r with errorTimes := pruned now 10000 r.errorTimes, loopTimes := pruned now 10000 r.loopTimes }

/-- The clock advanced by one, ages risen, and times that have left their lists removed (R1, R34, R35, R69, R172). -/
def State.advance (s : State) : State :=
  let now := after s.clock 1
  { s with
    clock := now
    us := 0
    faults := s.faults.tick
    lif := { s.lif with box := s.lif.box.prune now, field := s.lif.field.prune now }
    heads := Vector.ofFn fun h => { s.heads[h] with oneChannel := pruned now 60000 s.heads[h].oneChannel } }

/-! ### The events that are due -/

/-- An event when it is due. -/
def whenDue (b : Bool) (i : Instr) : List Instr := if b then [i] else []

/-- The events of a port; the two conditions run out in ISOLATED too (R28, R29, R34, R35, R43; log 40). -/
def State.portDue (s : State) (p : Port) : List Instr :=
  let r := s.port p
  whenDue (r.silentFor s.clock) (.portActivityTimeout p) ++ whenDue (r.checked s.clock) (.checkingComplete p) ++
  whenDue (r.errorsOver s.clock) (.errorTimeExpiry p) ++ whenDue (r.loopsOver s.clock) (.loopTimeExpiry p) ++
  whenDue (r.sendDue s.clock) (.transmitEnd p)

/-- The events of a head (R67, R69, R72). -/
def State.headDue (s : State) (h : Fin 8) : List Instr :=
  whenDue (s.stuckDue h .a) (.headStuck h .a) ++ whenDue (s.stuckDue h .b) (.headStuck h .b) ++
  whenDue (s.oneChannelDue h) (.oneChannelExpiry h) ++ whenDue (s.heartbeatDue h) (.headHeartbeat h)

/-- The events of a demand (R96, R105). -/
def demandDue (now : Time) (ix : Nat × DemandRec) : List Instr :=
  whenDue (ix.2.startDue now) (.startTimeTimer ix.1) ++ whenDue (ix.2.standingDue now) (.standingDeadline ix.1)

/-- The events of a machine (R160, R161). -/
def State.machineDue (s : State) (i : Fin 4) : List Instr :=
  let r := s.barrier.machines[i]
  whenDue (r.leaveDue s.clock) (.leaveDeadline i) ++ whenDue (r.travelDue s.clock) (.travelDeadline i)

/-- The drain deadline of a slot has been reached (R180). -/
def State.drainDue (s : State) (n : Fin 64) : Bool :=
  match s.faults.get n.val with
  | none => false
  | some r => due r.drain s.clock

/-- The ack deadline of a SENT record has been reached (R187). -/
def State.ackDue (s : State) (n : Fin 64) : Bool :=
  match s.faults.get n.val with
  | none => false
  | some r => decide (r.report = .sent) && due r.ackBy s.clock

/-- The events of a fault slot (R180, R187). -/
def State.slotDue (s : State) (n : Fin 64) : List Instr :=
  whenDue (s.drainDue n) (.drainDeadline n) ++ whenDue (s.ackDue n) (.ackDeadline n)

/-- The hold deadline has been reached (R171). -/
def State.holdDue (s : State) : Bool := s.barrier.zone.waiting && due s.barrier.zone.holdBy s.clock

/-- Every time event that is due. The sample point is none of them: it brings currents from outside (log 26). -/
def State.dueEvents (s : State) : List Instr :=
  s.portDue .box ++ s.portDue .field ++ whenDue s.writeDue .planBlockWriteComplete ++
  ((indexed 0 s.dps).flatMap fun ir => whenDue (ir.2.silenceDue s.clock) (.dpSilenceDeadline ir.1)) ++
  ((List.finRange 8).flatMap s.headDue) ++ whenDue s.restartedDue .restartedFlagClears ++
  ((indexed 0 s.demands).flatMap (demandDue s.clock)) ++ whenDue s.stateTimerDue .stateTimerDeadline ++
  whenDue s.exitTimerDue .exitTimerDeadline ++ whenDue s.lampTestDue .lampTestEnd ++ whenDue s.holdDue .holdDeadline ++
  ((List.finRange 4).flatMap s.machineDue) ++ whenDue (s.lights.halfDue s.clock) .halfPeriodEnd ++
  ((List.finRange 64).flatMap s.slotDue) ++ whenDue s.statusDue .statusPeriod

/-! ### Their order -/

/-- An element put at a place of a list, at the end when the place is beyond it. -/
def insertAt {α : Type} (x : α) : Nat → List α → List α
  | 0, l => x :: l
  | _ + 1, [] => [x]
  | n + 1, y :: l => y :: insertAt x n l

/-- The events in a free order: each is put at a freely chosen place among those that follow it (log 4). -/
def freeOrder (draw : Nat) : List Instr → List Instr
  | [] => []
  | [i] => [i]
  | i :: j :: l =>
    let rest := freeOrder draw (j :: l)
    insertAt i (Config.dueChoice draw (rest.length + 1) % (rest.length + 1)) rest

/-- The tick: a millisecond passes and the due events enter the empty queue (log 1). -/
def State.tick (s : State) : State :=
  let s := s.advance
  let l := s.dueEvents
  if l.length ≤ 1 then { s with pending := l } else { s with pending := freeOrder s.draws l, draws := s.draws + 1 }

end Sys2Proof.Machine
end

