-- ==== Sys2Proof/Machine/Events.lean ====
section
/-! DEFINITION. The meanings of START and of the events of the line, the inputs and the timers: the event taken by the block that
owns it, and the step completed. An event that brings nothing new, a deadline that has not been reached or an object that does
not exist, changes nothing of itself (logs 2, 27). -/

namespace Sys2Proof.Machine

open Sys2Proof

/-- DRAIN_DEADLINE of a slot (R180, R182). -/
def opDrain (n : Fin 64) (s : State) : State :=
  if s.drainDue n then { s with faults := s.faults.update n.val (FaultRec.drained s.clock s.tDrain) } else s

/-- ACK_DEADLINE of a SENT record (R187). -/
def opAckDeadline (n : Fin 64) (s : State) : State :=
  if s.ackDue n then { s with faults := s.faults.ackTimeout n.val } else s

/-- START (R4). -/
def execStart (s : State) : Host.Outcome State Fault Refusal := completes startPart s

/-- TELEGRAM_RECEIVED (R33). -/
def execTelegramReceived (port : Port) (bytes : List Byte) (us : Nat) (s : State) : Host.Outcome State Fault Refusal :=
  completes (opTelegram port bytes us) s

/-- PLAN_BLOCK_WRITE_COMPLETE (R16). -/
def execPlanBlockWriteComplete (s : State) : Host.Outcome State Fault Refusal := completes opWriteComplete s

/-- FILL_RECEIVED (R28). -/
def execFillReceived (port : Port) (s : State) : Host.Outcome State Fault Refusal := completes (opFill port) s

/-- COMPLEMENT_BYTES (R30). -/
def execComplementBytes (port : Port) (s : State) : Host.Outcome State Fault Refusal := completes (opComplement port) s

/-- PORT_ACTIVITY_TIMEOUT (R28). -/
def execPortActivityTimeout (port : Port) (s : State) : Host.Outcome State Fault Refusal :=
  completes (opPortTimeout port) s

/-- CHECKING_COMPLETE (R29). -/
def execCheckingComplete (port : Port) (s : State) : Host.Outcome State Fault Refusal :=
  completes (opCheckingComplete port) s

/-- ERROR_TIME_EXPIRY (R34). -/
def execErrorTimeExpiry (port : Port) (s : State) : Host.Outcome State Fault Refusal := completes (opErrorExpiry port) s

/-- LOOP_TIME_EXPIRY (R35). -/
def execLoopTimeExpiry (port : Port) (s : State) : Host.Outcome State Fault Refusal := completes (opLoopExpiry port) s

/-- TRANSMIT_END (R43). -/
def execTransmitEnd (port : Port) (s : State) : Host.Outcome State Fault Refusal := completes (opTransmitEnd port) s

/-- DP_SILENCE_DEADLINE (R63). -/
def execDpSilenceDeadline (dp : Nat) (s : State) : Host.Outcome State Fault Refusal := completes (opSilence dp) s

/-- HEAD_CHANNEL_EDGE (R67). -/
def execHeadChannelEdge (head : Fin 8) (channel : Channel) (active : Bool) (us : Nat) (s : State) : Host.Outcome State Fault Refusal :=
  completes (opHeadEdge head channel active us) s

/-- HEAD_STUCK (R67). -/
def execHeadStuck (head : Fin 8) (channel : Channel) (s : State) : Host.Outcome State Fault Refusal :=
  completes (opHeadStuck head channel) s

/-- ONE_CHANNEL_EXPIRY (R69). -/
def execOneChannelExpiry (head : Fin 8) (s : State) : Host.Outcome State Fault Refusal :=
  completes (opOneChannelExpiry head) s

/-- RESTARTED_FLAG_CLEARS (R66). -/
def execRestartedFlagClears (s : State) : Host.Outcome State Fault Refusal := completes opRestartedClears s

/-- HEAD_HEARTBEAT (R72). -/
def execHeadHeartbeat (head : Fin 8) (s : State) : Host.Outcome State Fault Refusal := completes (opHeartbeat head) s

/-- START_TIME_TIMER (R96). -/
def execStartTimeTimer (approach : Nat) (s : State) : Host.Outcome State Fault Refusal :=
  completes (opStartTimeTimer approach) s

/-- STANDING_DEADLINE (R105). -/
def execStandingDeadline (approach : Nat) (s : State) : Host.Outcome State Fault Refusal :=
  completes (opStandingDeadline approach) s

/-- STATE_TIMER_DEADLINE (R115, R116). -/
def execStateTimerDeadline (s : State) : Host.Outcome State Fault Refusal := completes opStateTimer s

/-- EXIT_TIMER_DEADLINE (R117). -/
def execExitTimerDeadline (s : State) : Host.Outcome State Fault Refusal := completes opExitTimer s

/-- LAMP_TEST_END (R141). -/
def execLampTestEnd (s : State) : Host.Outcome State Fault Refusal := completes opLampTestEnd s

/-- KEY_EDGE (R138). -/
def execKeyEdge (active : Bool) (s : State) : Host.Outcome State Fault Refusal := completes (opKeyEdge active) s

/-- PANEL_CLOSE_EDGE (R113, R138). -/
def execPanelCloseEdge (active : Bool) (s : State) : Host.Outcome State Fault Refusal :=
  completes (opPanelClose active) s

/-- PANEL_OPEN_EDGE (R121, R138). -/
def execPanelOpenEdge (active : Bool) (s : State) : Host.Outcome State Fault Refusal := completes (opPanelOpen active) s

/-- ZONE_EDGE (R170). -/
def execZoneEdge (active : Bool) (s : State) : Host.Outcome State Fault Refusal := completes (opZoneEdge active) s

/-- HOLD_DEADLINE (R171). -/
def execHoldDeadline (s : State) : Host.Outcome State Fault Refusal := completes opHoldDeadline s

/-- MACHINE_DETECTOR_CHANGE (R161). -/
def execMachineDetectorChange (machine : Fin 4) (up down boom : Bool) (s : State) : Host.Outcome State Fault Refusal :=
  completes (opDetectorChange machine up down boom) s

/-- LEAVE_DEADLINE (R160). -/
def execLeaveDeadline (machine : Fin 4) (s : State) : Host.Outcome State Fault Refusal :=
  completes (opLeaveDeadline machine) s

/-- TRAVEL_DEADLINE (R161). -/
def execTravelDeadline (machine : Fin 4) (s : State) : Host.Outcome State Fault Refusal :=
  completes (opTravelDeadline machine) s

/-- HALF_PERIOD_END (R147). -/
def execHalfPeriodEnd (s : State) : Host.Outcome State Fault Refusal := completes opHalfPeriodEnd s

/-- LAMP_SAMPLE_POINT (R150, R153). -/
def execLampSamplePoint (currents : Vector Nat 12) (s : State) : Host.Outcome State Fault Refusal :=
  completes (opSamplePoint currents) s

/-- DRAIN_DEADLINE (R180). -/
def execDrainDeadline (slot : Fin 64) (s : State) : Host.Outcome State Fault Refusal := completes (opDrain slot) s

/-- ACK_DEADLINE (R187). -/
def execAckDeadline (slot : Fin 64) (s : State) : Host.Outcome State Fault Refusal := completes (opAckDeadline slot) s

/-- STATUS_PERIOD (R191). -/
def execStatusPeriod (s : State) : Host.Outcome State Fault Refusal := completes opStatusPeriod s

/-- BATT_LOW_EDGE (R195). -/
def execBattLowEdge (active : Bool) (s : State) : Host.Outcome State Fault Refusal := completes (opBattLow active) s

/-- MAINS_OFF_EDGE (R195). -/
def execMainsOffEdge (active : Bool) (s : State) : Host.Outcome State Fault Refusal := completes (opMainsOff active) s

end Sys2Proof.Machine
end

