-- ==== Sys2Proof/Machine/Dispatch.lean ====
section
/-! DEFINITION. The effect of every command, one arm for each row of the table. -/

namespace Sys2Proof.Machine

def exec (i : Instr) (s : State) : Host.Outcome State Fault Refusal :=
  match i with
  | .start => Sys2Proof.Machine.execStart s
  | .telegramReceived port bytes us => Sys2Proof.Machine.execTelegramReceived port bytes us s
  | .ackReport tag slot change => Sys2Proof.Machine.execAckReport tag slot change s
  | .reportsStart tag => Sys2Proof.Machine.execReportsStart tag s
  | .reportsStop tag => Sys2Proof.Machine.execReportsStop tag s
  | .classEnable tag cls value => Sys2Proof.Machine.execClassEnable tag cls value s
  | .restoreSection tag index mode => Sys2Proof.Machine.execRestoreSection tag index mode s
  | .resetEquipmentLamp tag index => Sys2Proof.Machine.execResetEquipmentLamp tag index s
  | .resetEquipmentMachine tag index => Sys2Proof.Machine.execResetEquipmentMachine tag index s
  | .resetEquipmentHead tag index => Sys2Proof.Machine.execResetEquipmentHead tag index s
  | .remoteRequest tag => Sys2Proof.Machine.execRemoteRequest tag s
  | .remoteRelease tag => Sys2Proof.Machine.execRemoteRelease tag s
  | .remoteClose tag => Sys2Proof.Machine.execRemoteClose tag s
  | .remoteOpen tag => Sys2Proof.Machine.execRemoteOpen tag s
  | .localRelease tag => Sys2Proof.Machine.execLocalRelease tag s
  | .localWithdraw tag => Sys2Proof.Machine.execLocalWithdraw tag s
  | .testRequest tag => Sys2Proof.Machine.execTestRequest tag s
  | .testRelease tag => Sys2Proof.Machine.execTestRelease tag s
  | .testStep tag step machine => Sys2Proof.Machine.execTestStep tag step machine s
  | .planBlock tag args => Sys2Proof.Machine.execPlanBlock tag args s
  | .planBlockWriteComplete => Sys2Proof.Machine.execPlanBlockWriteComplete s
  | .planCheck tag => Sys2Proof.Machine.execPlanCheck tag s
  | .planActivate tag planId version => Sys2Proof.Machine.execPlanActivate tag planId version s
  | .planCancel tag => Sys2Proof.Machine.execPlanCancel tag s
  | .portIsolate tag => Sys2Proof.Machine.execPortIsolate tag s
  | .portRestore tag => Sys2Proof.Machine.execPortRestore tag s
  | .clearAcked tag => Sys2Proof.Machine.execClearAcked tag s
  | .read tag kind index => Sys2Proof.Machine.execRead tag kind index s
  | .fillReceived port => Sys2Proof.Machine.execFillReceived port s
  | .complementBytes port => Sys2Proof.Machine.execComplementBytes port s
  | .portActivityTimeout port => Sys2Proof.Machine.execPortActivityTimeout port s
  | .checkingComplete port => Sys2Proof.Machine.execCheckingComplete port s
  | .errorTimeExpiry port => Sys2Proof.Machine.execErrorTimeExpiry port s
  | .loopTimeExpiry port => Sys2Proof.Machine.execLoopTimeExpiry port s
  | .transmitEnd port => Sys2Proof.Machine.execTransmitEnd port s
  | .dpSilenceDeadline dp => Sys2Proof.Machine.execDpSilenceDeadline dp s
  | .headChannelEdge head channel active us => Sys2Proof.Machine.execHeadChannelEdge head channel active us s
  | .headStuck head channel => Sys2Proof.Machine.execHeadStuck head channel s
  | .oneChannelExpiry head => Sys2Proof.Machine.execOneChannelExpiry head s
  | .restartedFlagClears => Sys2Proof.Machine.execRestartedFlagClears s
  | .headHeartbeat head => Sys2Proof.Machine.execHeadHeartbeat head s
  | .startTimeTimer approach => Sys2Proof.Machine.execStartTimeTimer approach s
  | .standingDeadline approach => Sys2Proof.Machine.execStandingDeadline approach s
  | .stateTimerDeadline => Sys2Proof.Machine.execStateTimerDeadline s
  | .exitTimerDeadline => Sys2Proof.Machine.execExitTimerDeadline s
  | .lampTestEnd => Sys2Proof.Machine.execLampTestEnd s
  | .keyEdge active => Sys2Proof.Machine.execKeyEdge active s
  | .panelCloseEdge active => Sys2Proof.Machine.execPanelCloseEdge active s
  | .panelOpenEdge active => Sys2Proof.Machine.execPanelOpenEdge active s
  | .zoneEdge active => Sys2Proof.Machine.execZoneEdge active s
  | .holdDeadline => Sys2Proof.Machine.execHoldDeadline s
  | .machineDetectorChange machine up down boom => Sys2Proof.Machine.execMachineDetectorChange machine up down boom s
  | .leaveDeadline machine => Sys2Proof.Machine.execLeaveDeadline machine s
  | .travelDeadline machine => Sys2Proof.Machine.execTravelDeadline machine s
  | .halfPeriodEnd => Sys2Proof.Machine.execHalfPeriodEnd s
  | .lampSamplePoint currents => Sys2Proof.Machine.execLampSamplePoint currents s
  | .drainDeadline slot => Sys2Proof.Machine.execDrainDeadline slot s
  | .ackDeadline slot => Sys2Proof.Machine.execAckDeadline slot s
  | .statusPeriod => Sys2Proof.Machine.execStatusPeriod s
  | .battLowEdge active => Sys2Proof.Machine.execBattLowEdge active s
  | .mainsOffEdge active => Sys2Proof.Machine.execMainsOffEdge active s

end Sys2Proof.Machine
end

