-- ==== Sys2Proof/Safety.lean ====
section
/-! DEFINITION. The words the statements are made of: that a command answers a next state of which something holds, what a
command leaves as it was, when a time event is due, what breaks an item of the plan check, and the laws that the spec says
hold of the part at every moment. -/

namespace Sys2Proof.Machine

open Sys2Proof

/-! ### Answers and frames -/

/-- The command answers a next state, and the property holds of it. -/
def Reaches (c : Instr) (s : State) (P : State → Prop) : Prop := ∃ t, exec c s = .next t ∧ P t

/-- No activation waits (R19), so the end of the step makes no swap. -/
abbrev NoActivation (s : State) : Prop := s.store.pending = false

/-- Of the Line Interface only the queues, the credits, the transmissions and the line counters may differ: port states,
polarities, times, conditions, the station address and the wrong-side set stand. -/
def TrafficOnly (l m : Lif) : Prop :=
  m = { l with
    box := { l.box with counters := m.box.counters, sending := m.box.sending }
    field := { l.field with counters := m.field.counters, sending := m.field.sending }
    q3 := m.q3, q2 := m.q2, q1 := m.q1, q0 := m.q0, qf := m.qf
    credit2 := m.credit2, credit1 := m.credit1, credit0 := m.credit0 }

/-- Of the Fault Table only the records and the window may differ: the process, the timeouts and the enables stand. -/
def RecordsOnly (t u : FaultTable) : Prop := u = { t with ordinary := u.ordinary, overflow := u.overflow, window := u.window }

/-- What the end of a step that makes no swap may change: traffic on the line, fault records, the last STATUS built. -/
def LineFrame (s t : State) : Prop :=
  TrafficOnly s.lif t.lif ∧ RecordsOnly s.faults t.faults ∧
    t = { s with lif := t.lif, faults := t.faults, builder := t.builder }

/-- Beside that, what the Sequence Controller, the Authority Arbiter, the Light Driver and the Barrier Drive Unit own. -/
def ControlFrame (s t : State) : Prop :=
  TrafficOnly s.lif t.lif ∧ RecordsOnly s.faults t.faults ∧
    t = { s with lif := t.lif, faults := t.faults, builder := t.builder, crossing := t.crossing, authority := t.authority,
                 lights := t.lights, barrier := t.barrier }

/-- Beside that, the sections and the demands. -/
def TrackFrame (s t : State) : Prop :=
  TrafficOnly s.lif t.lif ∧ RecordsOnly s.faults t.faults ∧
    t = { s with lif := t.lif, faults := t.faults, builder := t.builder, crossing := t.crossing, authority := t.authority,
                 lights := t.lights, barrier := t.barrier, sects := t.sects, demands := t.demands }

/-- Beside that, the DP records, the heads and the microseconds of the event. -/
def DetectFrame (s t : State) : Prop :=
  TrafficOnly s.lif t.lif ∧ RecordsOnly s.faults t.faults ∧
    t = { s with lif := t.lif, faults := t.faults, builder := t.builder, crossing := t.crossing, authority := t.authority,
                 lights := t.lights, barrier := t.barrier, sects := t.sects, demands := t.demands, dps := t.dps,
                 heads := t.heads, us := t.us }

/-! ### The time events (R1) -/

/-- A deadline that may be unset is set and has been reached. -/
def DeadlineReached (d : Option Time) (now : Time) : Prop := ∃ t, d = some t ∧ reached t now = true

/-- A head that a DP entry of the plan in force names (R8, R66). -/
def HeadNamed (s : State) (h : Fin 8) : Prop := ∃ e ∈ s.dpTable, e.source = .head ∧ e.head = h.val

/-- What an event of the clock times has come at a clock value. Every other command comes from outside. -/
def EventDue (s : State) (now : Time) : Instr → Prop
  -- 200 ms without line activity, the end of CHECKING (R28, R29)
  | .portActivityTimeout p =>
    ((s.port p).state = .checking ∨ (s.port p).state = .active) ∧ reached ((s.port p).lastActivity + 200) now = true
  | .checkingComplete p => (s.port p).state = .checking ∧ reached ((s.port p).checkStart + 2000) now = true
  -- 10000 ms since the newest time of the list (R34, R35; log 40)
  | .errorTimeExpiry p => (s.port p).lineErrors = true ∧ ∀ x ∈ (s.port p).errorTimes, reached (x + 10000) now = true
  | .loopTimeExpiry p => (s.port p).lineLoop = true ∧ ∀ x ∈ (s.port p).loopTimes, reached (x + 10000) now = true
  -- the last byte of a transmission has left (R43, R44)
  | .transmitEnd p => ∃ x, (s.port p).sending = some x ∧ reached x.ends.ms now = true
  -- 40 ms since a block write began (R16; log 25)
  | .planBlockWriteComplete => ∃ w, s.store.write = some w ∧ reached (w.began + 40) now = true
  -- the silence deadline of a record that is not SILENT (R63)
  | .dpSilenceDeadline i => ∃ r, s.dps[i]? = some r ∧ r.state ≠ .silent ∧ DeadlineReached r.deadline now
  -- the active time of a channel has come to the Pmax it started under (R66, R67, R21; log 48)
  | .headStuck h c => HeadNamed s h ∧ s.heads[h].failed = false ∧
    ∃ m, (s.heads[h].channel c).since = some m ∧ (s.heads[h].channel c).limit ≤ microsFrom m ⟨now, 0⟩
  -- 60000 ms since the newest one-channel time of a DEGRADED head (R69)
  | .oneChannelExpiry h => HeadNamed s h ∧ s.heads[h].failed = false ∧ s.heads[h].sentHealth = .degraded ∧
    ∀ x ∈ s.heads[h].oneChannel, reached (x + 60000) now = true
  -- 500 ms since the last emission, with no change in between (R72)
  | .headHeartbeat h => HeadNamed s h ∧ s.heads[h].owed = false ∧ reached (s.heads[h].lastSent + 500) now = true
  -- 5000 ms since START, at clock 0 (R66)
  | .restartedFlagClears => reached 5000 now = true ∧ ∃ h : Fin 8, s.heads[h].restarted = true
  -- t_s of a PREDICTED demand, the standing deadline of an unforced WARNING demand (R96, R105)
  | .startTimeTimer n => ∃ d, s.demands[n]? = some d ∧ d.state = .predicted ∧ DeadlineReached d.ts now
  | .standingDeadline n => ∃ d, s.demands[n]? = some d ∧ d.state = .warning ∧ d.forced = false ∧ DeadlineReached d.standing now
  -- the timers of the crossing, the step end of a LAMP TEST (R115 to R117, R141)
  | .stateTimerDeadline => DeadlineReached s.crossing.stateTimer now
  | .exitTimerDeadline => s.crossing.exitRun = false ∧ DeadlineReached s.crossing.exitTimer now
  | .lampTestEnd => s.authority.step = .lampTest ∧ DeadlineReached s.authority.stepEnd now
  -- the exit hold (R171)
  | .holdDeadline => s.barrier.zone.waiting = true ∧ DeadlineReached s.barrier.zone.holdBy now
  -- the two limits of a machine that moves (R160, R161)
  | .leaveDeadline i => (s.barrier.machines[i].state = .lowering ∨ s.barrier.machines[i].state = .raising) ∧
    s.barrier.machines[i].leaveMet = false ∧ DeadlineReached s.barrier.machines[i].leaveBy now
  | .travelDeadline i => (s.barrier.machines[i].state = .lowering ∨ s.barrier.machines[i].state = .raising) ∧
    DeadlineReached s.barrier.machines[i].travelBy now
  -- the end of the present half-period (R147)
  | .halfPeriodEnd => reached (s.lights.began + BitVec.ofNat 32 s.lights.length) now = true
  -- the drain deadline of a record, the ack deadline of a SENT one (R180, R187)
  | .drainDeadline n => ∃ r, s.faults.get n.val = some r ∧ DeadlineReached r.drain now
  | .ackDeadline n => ∃ r, s.faults.get n.val = some r ∧ r.report = .sent ∧ DeadlineReached r.ackBy now
  -- 1000 ms since the last build, while the box port is ACTIVE (R191)
  | .statusPeriod => s.lif.box.state = .active ∧ ∃ t, s.builder.lastAt = some t ∧ reached (t + 1000) now = true
  | _ => False

/-! ### The plan check (R6 to R13, R51, R52) -/

/-- Each value is in its range, both ends included: a list of values, each with its least and its greatest. -/
def InRanges (l : List (Nat × Nat × Nat)) : Prop := ∀ f ∈ l, f.2.1 ≤ f.1 ∧ f.1 ≤ f.2.2

/-- The header fields of a plan image with their ranges (R6, R51); the flag bits 6 and 7 are 0. -/
def headerFields (b : List Byte) : List (Nat × Nat × Nat) :=
  [(u8 b 3, 0, 63), (u8 b 13, 1, 40), (u16 b 14, 15000, 60000), (u16 b 16, 10000, u16 b 14), (u16 b 18, 2000, 5000),
   (u16 b 20, 2000, 10000), (u16 b 22, 4000, 20000), (u16 b 24, 5000, 60000), (u16 b 26, 5000, 30000),
   (u16 b 28, 3000, 15000), (u32 b 30, 30000, 600000), (u16 b 34, 50, 700), (u16 b 36, 10, 200),
   (u16 b 38, u16 b 34 + 1, 900), (u16 b 40, 300, 600), (u16 b 42, 1000, 5000), (u16 b 44, 100, 5000),
   (u16 b 46, 1000, 60000), (u8 b 48, 1, 15), (u8 b 49, 1, 15), (u8 b 50, 1, 15)]

/-- A current window from a byte on: Imin, and Imax no less (R11, R51). -/
def windowFields (b : List Byte) (o : Nat) : List (Nat × Nat × Nat) :=
  [(u16 b o, 50, 5000), (u16 b (o + 2), max 50 (u16 b o), 5000)]

/-- The fields of an equipment position, the light groups and then the machines (R11, R51, log 14). -/
def equipmentFields (b : List Byte) (i : Nat) : List (Nat × Nat × Nat) :=
  if i < 4 then
    (u8 b (51 + 13 * i), 0, 1) :: (windowFields b (52 + 13 * i) ++ windowFields b (56 + 13 * i) ++ windowFields b (60 + 13 * i))
  else
    let o := 103 + 6 * (i - 4)
    [(u8 b o, 0, 1), (u8 b (o + 1), 0, 1), (u16 b (o + 2), 500, 5000), (u16 b (o + 4), max 4000 (u16 b (o + 2) + 1), 30000)]

/-- The fields of a DP entry; the head index of a line DP is not checked (R8, R52). -/
def dpFields (e : List Byte) : List (Nat × Nat × Nat) :=
  [(u8 e 0, 0, 1), (u8 e 1, 0, 2), (u8 e 2, 1, 239), (u8 e 4, 0, 3)] ++ if u8 e 0 = 0 then [] else [(u8 e 3, 0, 7)]

/-- The fields of a section entry; pairs beyond its own count are not checked (R9, R52). -/
def sectFields (e : List Byte) : List (Nat × Nat × Nat) :=
  [(u8 e 1, 0, 3), (u8 e 2, 0, 2), (u8 e 3, 0, 1), (u8 e 4, 2, 4)] ++
    (List.range (u8 e 4)).flatMap fun k => [(u8 e (5 + 2 * k), 0, 47), (u8 e (6 + 2 * k), 0, 1)]

/-- The fields of an approach entry; list positions beyond its own counts are not checked, and the positions of the
latest-start DP and the stop DP belong to INDEX (R10, R12, R52). -/
def approachFields (e : List Byte) : List (Nat × Nat × Nat) :=
  [(u8 e 0, 0, 3), (u8 e 1, 0, 1), (u8 e 2, 2, 6), (u8 e 21, 1, 6), (u8 e 29, 0, 1)] ++
    ((List.range (u8 e 2)).flatMap fun k => [(u8 e (3 + 3 * k), 0, 47), (u16 e (4 + 3 * k), 1, 65000)]) ++
    (List.range (u8 e 21)).map fun k => (u8 e (22 + k), 0, 31)

/-- The entries of a table of a plan image (R51, R52). -/
def tableLength (b : List Byte) : PlanTable → Nat
  | .equipment => 8
  | .dp => u8 b 10
  | .sect => u8 b 11
  | .approach => u8 b 12

/-- The fields of an entry of a table, where the encoding puts it (R51, R52). -/
def entryFields (b : List Byte) (i : Nat) : PlanTable → List (Nat × Nat × Nat)
  | .equipment => equipmentFields b i
  | .dp => dpFields (entryBytes b 127 5 i)
  | .sect => sectFields (entryBytes b (127 + 5 * u8 b 10) 13 i)
  | .approach => approachFields (entryBytes b (127 + 5 * u8 b 10 + 13 * u8 b 11) 31 i)

/-- A track has not exactly one ISLAND section (R9, R12). -/
def IslandMissing (p : Plan) (track : Nat) : Prop := (p.sects.countP fun x => decide (x.kind = .island ∧ x.track = track)) ≠ 1

/-- A plan image breaks an item of the plan check as a whole (R12, R51, R52). -/
def ItemBroken (b : List Byte) : PlanItem → Prop
  | .length => ¬ InRanges [(u8 b 10, 1, 48), (u8 b 11, 1, 32), (u8 b 12, 0, 8),
      (u16 b 4, 127 + 5 * u8 b 10 + 13 * u8 b 11 + 31 * u8 b 12, 4096)]
  | .crc => crc32 ((List.range (u16 b 4)).map fun i => if 6 ≤ i ∧ i < 10 then 0 else b.getD i 0) ≠ BitVec.ofNat 32 (u32 b 6)
  | .range => ¬ InRanges (headerFields b)
  | _ => False

/-- An entry of a table of a plan image breaks an item of the plan check, for a part with the given station address (R8 to
R13). Of two entries that share an address, a head index or a section id, it is the later that breaks IDENTITY (log 14). -/
def EntryBroken (station : Option Byte) (b : List Byte) (item : PlanItem) (t : PlanTable) (i : Nat) : Prop :=
  let p := planOf b
  match item, t with
  | .range, t => i < tableLength b t ∧ ¬ InRanges (entryFields b i t)
  | .identity, .dp => ∃ e, p.dps[i]? = some e ∧
      ((∃ x ∈ p.dps.take i, x.address = e.address ∨ (x.source = .head ∧ e.source = .head ∧ x.head = e.head)) ∨
        station = some e.address ∨ (e.source = .line ↔ e.side = .localHead))
  | .identity, .sect => ∃ e, p.sects[i]? = some e ∧ ∃ x ∈ p.sects.take i, x.id = e.id
  | .reference, .sect => ∃ e, p.sects[i]? = some e ∧
      ((∃ c ∈ e.bounds, p.dps.length ≤ c.dp) ∨ ¬ (e.bounds.map (·.dp)).Nodup)
  | .reference, .approach => ∃ a, p.approaches[i]? = some a ∧
      ((∃ c ∈ a.points, p.dps.length ≤ c.dp) ∨ ¬ (a.points.map (·.dp)).Nodup ∨ (∃ n ∈ a.sects, p.sects.length ≤ n) ∨
        ¬ a.sects.Nodup)
  | .island, .dp => ∃ e, p.dps[i]? = some e ∧ IslandMissing p e.track
  | .island, .sect => ∃ e, p.sects[i]? = some e ∧ IslandMissing p e.track
  | .island, .approach => ∃ a, p.approaches[i]? = some a ∧ IslandMissing p a.track
  | .order, .approach => ∃ a, p.approaches[i]? = some a ∧
      (¬ (a.points.map (·.dist)).Pairwise (· > ·) ∨ (∃ c ∈ a.points, ¬ ∃ e, p.dps[c.dp]? = some e ∧ e.track = a.track) ∨
        ∃ n ∈ a.sects, ¬ ∃ e, p.sects[n]? = some e ∧ e.kind = .approach ∧ e.track = a.track)
  | .index, .approach => ∃ a, p.approaches[i]? = some a ∧
      (a.latest < 2 ∨ a.points.length < a.latest ∨
        (a.stopPermitted = true ∧ (a.stopAt < 1 ∨ a.points.length ≤ a.stopAt)))
  | .prediction, .approach => ∃ a c, p.approaches[i]? = some a ∧ a.points[1]? = some c ∧ c.dist * 1000 < p.vLine * p.lead
  | _, _ => False

/-- The place of an item in the order of the plan check (R12). -/
def itemOrder : PlanItem → Nat
  | .length => 1
  | .crc => 2
  | .range => 3
  | .identity => 4
  | .reference => 5
  | .island => 6
  | .order => 7
  | .index => 8
  | .prediction => 9

/-- The order in which an item looks at the tables (log 14). -/
def tableOrder : PlanTable → Nat
  | .equipment => 0
  | .dp => 1
  | .sect => 2
  | .approach => 3

/-! ### The Plan Store (R14 to R19) -/

/-- Both banks are in canonical form, and a write in flight is of one whole block of a bank. -/
def BanksLaw (st : PlanStore) : Prop :=
  st.bankA.contents.wf = true ∧ st.bankB.contents.wf = true ∧
    ∀ w, st.write = some w → w.block < 64 ∧ w.data.length = 64

/-- A plan is in force exactly while the selected bank is ACTIVE; the standby bank never is, it is CHECKED while an
activation waits, and LOADING while a block is written. -/
def StoreLaw (st : PlanStore) : Prop :=
  (st.plan.isSome = true ↔ (st.bank st.selected).state = .active) ∧ st.standby.state ≠ .active ∧
    (st.pending = true → st.standby.state = .checked) ∧ (st.write.isSome = true → st.standby.state = .loading)

/-- There is one record for each entry of the plan in force (R53, R73, R87). -/
def RecordsMatchPlan (s : State) : Prop :=
  s.dps.length = s.dpTable.length ∧ s.sects.length = s.sectTable.length ∧ s.demands.length = s.approachTable.length

/-! ### Sections (R73, R76, R83) -/

/-- The law of the part on counts, and what a sweep holds (R74, R76, R83). -/
def SectLaw (r : SectRec) : Prop :=
  (r.state = .occupied → 1 ≤ r.count ∧ r.count ≤ 999) ∧ (r.state ≠ .occupied → r.count = 0) ∧
    (r.state ≠ .restoring → r.balance = 0) ∧
    (r.state = .restoring → r.balance ≤ 999 ∧ (r.entered = true ↔ 0 < r.balance))

/-! ### The Fault Table (R172, R173, R180, R181, R185) -/

/-- One fault record: the drain deadline runs exactly above level 0, a latched record is ACTIVE, and the ack deadline runs
exactly while the record is SENT. -/
def FaultRecLaw (r : FaultRec) : Prop :=
  r.level ≤ 15 ∧ (r.drain.isSome = true ↔ 0 < r.level) ∧ (r.latched = true → r.active = true) ∧
    (r.ackBy.isSome = true ↔ r.report = .sent) ∧ r.raises ≤ 65535

/-- Every record keeps its law; no two ordinary records share a code and source; the window holds at most four slots and is
exactly the slots of the SENT records. -/
def FaultTableLaw (t : FaultTable) : Prop :=
  (∀ n r, t.get n = some r → FaultRecLaw r) ∧
    (∀ i j : Fin 63, ∀ r u, t.ordinary[i] = some r → t.ordinary[j] = some u → r.code = u.code → r.source = u.source → i = j) ∧
    t.window.length ≤ 4 ∧ t.window.Nodup ∧ ∀ n, n ∈ t.window ↔ ∃ r, t.get n = some r ∧ r.report = .sent

/-! ### Lights (R148, R152) -/

/-- A lamp is cut off exactly while it is FAILED_SHORT, and then it is not driven. -/
def LampLaw (l : Lamp) : Prop := (l.enabled = false ↔ l.state = .failedShort) ∧ (l.enabled = false → l.driven = false)

/-- The two reds of a group are never driven together, and every lamp keeps its law. -/
def LightsLaw (l : Lights) : Prop :=
  ∀ g : Fin 4, ¬ (l.groups[g].redA.driven = true ∧ l.groups[g].redB.driven = true) ∧
    LampLaw l.groups[g].amber ∧ LampLaw l.groups[g].redA ∧ LampLaw l.groups[g].redB

/-! ### Machines (R157, R160, R161, R165) -/

/-- A machine: its drive is on exactly while it moves, in the direction it moves, and then under the travel deadline that stands
T_travel after its command; the leave deadline runs exactly while leave is not met, T_leave after the command; it has a failure
cause and a failure time when it is FAILED, and no direction. -/
def MachineLaw (r : MachineRec) : Prop :=
  (∀ d, r.drive = some d → r.state = d.moving) ∧ (∀ d : Dir, r.state = d.moving → r.drive = some d) ∧
    (r.isMoving = true ↔ r.travelBy.isSome = true) ∧
    (r.leaveBy.isSome = true ↔ r.isMoving = true ∧ r.leaveMet = false) ∧
    (∀ d, r.travelBy = some d → ∃ c, r.cmdTime = some c ∧ d = c + BitVec.ofNat 32 r.tTravel) ∧
    (∀ d, r.leaveBy = some d → ∃ c, r.cmdTime = some c ∧ d = c + BitVec.ofNat 32 r.tLeave) ∧
    (r.state = .failed ↔ r.cause ≠ .none) ∧ (r.state = .failed → r.commanded = none ∧ r.failTime.isSome = true)

/-! ### The crossing (R113, R115 to R118, R125) -/

/-- The Sequence Controller's views are the demands and the islands as they stand (R110). -/
def ViewsLaw (s : State) : Prop := s.crossing.demandView = s.demandsNow ∧ s.crossing.islandView = s.islandsNow

/-- While a closure cause stands the crossing is not OPEN, RAISING or in a test. -/
def CausesLaw (s : State) : Prop :=
  s.causes ≠ [] → s.crossing.state ≠ .opened ∧ s.crossing.state ≠ .raising ∧ s.crossing.state ≠ .testActive

/-- What keeps the law of the part on closure. -/
def ClosureInvariant (s : State) : Prop := RecordsMatchPlan s ∧ ViewsLaw s ∧ CausesLaw s

/-- The timers run in the states that use them (R114 to R118). -/
def TimersLaw (c : CrossingRec) : Prop :=
  (c.stateTimer.isSome = true ↔ c.state = .amber ∨ c.state = .redLead) ∧
    (c.exitTimer.isSome = true → c.state = .lowerEntry) ∧
    (c.state = .lowerEntry → c.exitTimer.isSome = true ∨ c.exitRun = true) ∧ (c.state = .lowerExit → c.exitRun = true) ∧
    (c.loweringStart.isSome = true ↔
      c.state = .lowerEntry ∨ c.state = .lowerExit ∨ c.state = .closed ∨ c.state = .degraded ∨ c.state = .raising)

/-- The phase and the end that go with a test step (R141, R142). -/
def StepPhaseLaw (a : AuthorityRec) : Prop :=
  match a.step with
  | .none => a.phase = .none ∧ a.stepEnd = none
  | .lampTest => a.phase = .flashing ∧ a.stepEnd.isSome = true
  | .machineCycle _ => (a.phase = .lowering ∨ a.phase = .raising) ∧ a.stepEnd = none

/-- The timers, and TEST_ACTIVE exactly while a test step runs. -/
def SequenceLaw (s : State) : Prop :=
  TimersLaw s.crossing ∧ StepPhaseLaw s.authority ∧ (s.crossing.state = .testActive ↔ s.authority.step ≠ .none)

/-! ### Queues and counters (R42, R44, R27, R53, R66) -/

/-- The queues keep their room, hold at most one STATUS, and are empty while their port is not ACTIVE. -/
def QueuesLaw (l : Lif) : Prop :=
  l.q3.length ≤ 16 ∧ l.q2.length ≤ 16 ∧ l.q1.length ≤ 16 ∧ l.q0.length ≤ 16 ∧ l.qf.length ≤ 32 ∧
    (l.q3.filter Waiting.isStatus).length ≤ 1 ∧
    (l.box.state ≠ .active → l.q3 = [] ∧ l.q2 = [] ∧ l.q1 = [] ∧ l.q0 = []) ∧ (l.field.state ≠ .active → l.qf = []) ∧
    l.box.state ≠ .isolated

/-- The lists of times keep their lengths, and the axle counters stay below 4096. -/
def CountersLaw (s : State) : Prop :=
  s.lif.box.errorTimes.length ≤ 21 ∧ s.lif.field.errorTimes.length ≤ 21 ∧ s.lif.box.loopTimes.length ≤ 3 ∧
    s.lif.field.loopTimes.length ≤ 3 ∧ (∀ h : Fin 8, s.heads[h].inc < 4096 ∧ s.heads[h].dec < 4096 ∧
      s.heads[h].oneChannel.length ≤ 4) ∧ ∀ r ∈ s.dps, r.inc < 4096 ∧ r.dec < 4096

/-! ### What the heads owe (R72) -/

/-- A change of a head that the plan names has been carried by a COUNT, unless a further event of the head waits at the same
clock value, that is before any START that waits (log 37). So nothing is owed when a START is taken. -/
def HeldLaw (s : State) : Prop := ∀ h : Fin 8, s.named h = true → s.heads[h].owed = true → s.headWaits h = true

end Sys2Proof.Machine
end

