-- ==== Sys2Proof/Certificates/Slice0/Obligations.lean ====
section
/-! DEFINITION. The statements for the provers. A conclusion `exec c s = .next u.settle` gives the command's own effect `u`
whole: everything `u` does not name stands as in `s`, and what the end of the step may add is the subject of
`SettleMakesTheSwapThatIsDue` and `FinishLeavesAllButTraffic`. -/

open Sys2Proof Sys2Proof.Machine

/-! ### The step -/

/-- A step takes the command at the front of the queue and runs it on the rest. -/
def Obligations.StepTakesTheFrontCommand : Prop :=
  ∀ (c : Instr) (s : State), step { s with pending := c :: s.pending } = exec c s

/-- On an empty queue the clock advances by one millisecond, and a time event waits exactly when what it times has come at the
new clock value, as `EventDue` says of each event by its rule: a deadline is reached when the clock is not before it (R1). The
times that have left a port's or a head's list go, every fault record's age rises by one, and nothing else of the part changes
(R34, R35, R69, R172). That the tick is the step on an empty queue and the order of its events are the model's choice (logs 1
and 4), as are the 40 ms of a block write (log 25), the two lists of an ISOLATED port (log 40), the clock value at which a
channel is found stuck (log 48) and that a lamp sample is no event of the tick (log 26). -/
def Obligations.IdleStepAdvancesTheClock : Prop :=
  (∀ d now : Time, reached d now = true ↔ (d - now).toInt ≤ 0) ∧
  ∀ s : State, s.pending = [] → ∃ t, step s = .next t ∧ t.clock = s.clock + 1 ∧ t.us = 0 ∧
    t.pending.Perm s.advance.dueEvents ∧ (∀ e : Instr, e ∈ t.pending ↔ EventDue s t.clock e) ∧ s.draws ≤ t.draws ∧
    t = { s with clock := t.clock, us := t.us, pending := t.pending, draws := t.draws, faults := t.faults,
                 lif := t.lif, heads := t.heads } ∧
    t.lif = { s.lif with box := t.lif.box, field := t.lif.field } ∧
    (∀ p : Port, t.port p = { s.port p with
      errorTimes := (s.port p).errorTimes.filter fun x => !reached (x + 10000) t.clock
      loopTimes := (s.port p).loopTimes.filter fun x => !reached (x + 10000) t.clock }) ∧
    (∀ h : Fin 8, t.heads[h] = { s.heads[h] with
      oneChannel := s.heads[h].oneChannel.filter fun x => !reached (x + 60000) t.clock }) ∧
    t.faults = { s.faults with ordinary := t.faults.ordinary, overflow := t.faults.overflow } ∧
    ∀ n, t.faults.get n = (s.faults.get n).map fun r => { r with age := min 2147483647 (r.age + 1) }

/-- No command stops the part: each answers a next state, with the queue behind it as it was and, START apart, the clock and
the count of free values too; START sets the clock to 0. The queue and the clock are the spec's commands and crossing clock;
that START keeps the queue of waiting commands is the model's choice (log 33). -/
def Obligations.CommandsAnswerNextAndKeepTheQueue : Prop :=
  ∀ (c : Instr) (s : State), ∃ t, exec c s = .next t ∧ t.pending = s.pending ∧
    (c ≠ .start → t.clock = s.clock ∧ t.draws = s.draws) ∧ (c = .start → t.clock = 0)

/-- The end of a step makes the swap exactly when an activation waits and the activation condition of R20 holds, now and once
the COUNTs that the heads owe at this clock value have been taken; these are emitted before it, so that no change of a head
that the old plan names is lost (R72). That the Plan Store looks there for the last change of the step is the model's choice
(log 10), and so is what heads owe at a swap (log 37). A swap makes the standby bank the active one and returns the flag to
IDLE (R20, R21). It keeps a DP record of the same identity, side and track and a section record of the
same id, track and bounding list, and makes every other one anew; it creates the demands, forced where a watched section is
in doubt; the heads stay, and one newly named is timed from the swap and emits a COUNT; the class enables are the new plan's
and the wrong-side set is empty (R7, R22, R23, R40, R72). The lamps of a new or changed group are renewed; a machine of the
same entry stays, any other is read from its detectors, and one that this takes out of FAILED in OPEN is sent RAISE, the
direction of OPEN (R111, R112; the model's inference, log 21); after NO_PLAN the crossing is in LOWER_ENTRY (R155, R158,
R169, R127). It reports: DP_WRONG_SIDE cleared for each address of the set whose DP the new plan declares (R40), a clear for
every ACTIVE record of an absent source (R23), SECTION_DISTURBED of every section without a kept record (R22, R79),
MACHINE_FAILED raised or cleared as a machine read afresh is FAILED or no longer so (R165, R169), PLAN_ACTIVATED with the
new active bank (R23), and after NO_PLAN the end of CROSSING_NO_PLAN; their order (log 11), and that the zone, the cabinet
and the fault table are no absent sources (log 45), are the model's choice. The last sample kind of a renewed lamp, the
times of a machine read afresh, two fields of a created demand and the Pmax of a newly named head are the model's choice
(logs 22, 43, 8 and 16). -/
def Obligations.SettleMakesTheSwapThatIsDue : Prop :=
  ∀ s : State, s.swap.store.selected = s.store.selected.other ∧ s.swap.store.pending = false ∧
    s.swap.store.write = s.store.write ∧
    s.swap.store.bank s.store.selected.other = { s.store.standby with state := .active } ∧
    s.swap.store.bank s.store.selected =
      { s.store.bank s.store.selected with
        state := if (s.store.bank s.store.selected).state = .active then .checked
                 else (s.store.bank s.store.selected).state } ∧
    s.swap.store.plan = some (planOf s.store.standby.image) ∧
    s.settle = s.swapIfDue.finish ∧
    (∀ may : State → Prop, (∀ v, may v ↔ v.crossing.state = .noPlan ∨
        (v.crossing.state = .opened ∧ (∀ d ∈ v.demands, d.state = .idle) ∧ ∀ r ∈ v.sects, r.state = .clear)) →
      (s.store.pending = true → may s → may s.owedCarried → s.swapIfDue = s.owedCarried.swap) ∧
      (s.store.pending = false ∨ ¬ may s ∨ ¬ may s.owedCarried → s.swapIfDue = s)) ∧
    s.owedCarried = (List.finRange 8).foldl (fun v h => if v.heads[h].owed = true then v.emitBy id h else v) s ∧
    ((∀ h : Fin 8, s.heads[h].owed = false) → s.owedCarried = s) ∧
    (∀ h : Fin 8, s.named h = true → s.owedCarried.heads[h].owed = false) ∧
    (∀ x y : DpEntry, sameDp x y = true ↔ (x.source = .line ∧ y.source = .line ∧ x.address = y.address) ∨
      (x.source = .head ∧ y.source = .head ∧ x.head = y.head)) ∧
    (∀ (xs ys : List DpEntry) (l m : List Bound), sameBounds xs ys l m = true ↔ l.length = m.length ∧ ∀ b ∈ m, ∃ c ∈ l,
      c.entering = b.entering ∧ ∃ x y, xs[c.dp]? = some x ∧ ys[b.dp]? = some y ∧ sameDp x y = true) ∧
    (∀ (p : Plan) (old : Option Plan) (u : State), p = planOf s.store.standby.image → old = s.store.plan →
      u = { s with store := s.swap.store } →
      s.swap = (((u.swapRecords old p).swapEquipment old p).swapCrossing).emitNamed old p ∧
      (∃ wrong fresh : List FaultAct,
        (u.swapRecords old p).faults = fresh.foldl (FaultTable.act s.clock p.tDrain)
          ((wrong.foldl (FaultTable.act s.clock p.tDrain) s.faults).clearAbsent s.clock (sourceAbsent old p)) ∧
        (∀ x, x ∈ wrong ↔ ∃ (i : Nat) (e : DpEntry), (dpsBefore old)[i]? = some e ∧ e.source = .line ∧
          e.address ∈ s.lif.wrongSide ∧ (∃ f ∈ p.dps, sameDp e f = true) ∧ x = .clear .dpWrongSide ⟨.dp, i⟩) ∧
        ∀ (x : FaultAct) (same : SectionEntry → SectionEntry → Prop),
          (∀ o e, same o e ↔ o.id = e.id ∧ o.track = e.track ∧ sameBounds (dpsBefore old) p.dps o.bounds e.bounds = true) →
          (x ∈ fresh ↔ ∃ (i : Nat) (e : SectionEntry), p.sects[i]? = some e ∧
            x = .raise .sectionDisturbed ⟨.sect, i⟩ (if e.kind = .island then .safety else .urgent) ∧
            ¬ ∃ (j : Nat) (o : SectionEntry) (r : SectRec), (sectsBefore old)[j]? = some o ∧ s.sects[j]? = some r ∧ same o e ∧
              ∀ (k : Nat) (y : SectionEntry), k < j → (sectsBefore old)[k]? = some y → ¬ same y e)) ∧
      (∀ src : FaultSource, sourceAbsent old p src = true ↔
        (src.kind = .dp ∧ ¬ ∃ x y, (dpsBefore old)[src.index]? = some x ∧ p.dps[src.index]? = some y ∧ sameDp x y = true) ∨
        (src.kind = .sect ∧ ¬ ∃ x y, (sectsBefore old)[src.index]? = some x ∧ p.sects[src.index]? = some y ∧ x.id = y.id) ∨
        (src.kind = .approach ∧ ¬ ∃ x y, (approachesBefore old)[src.index]? = some x ∧ p.approaches[src.index]? = some y ∧
          x.track = y.track ∧ x.dir = y.dir) ∨
        (src.kind = .head ∧ ∀ e ∈ p.dps, e.source = .head → e.head ≠ src.index) ∨
        (src.kind = .lamp ∧ ∀ g : Fin 4, src.index / 3 = g.val → p.groups[g].present = false) ∨
        (src.kind = .group ∧ ∀ g : Fin 4, src.index = g.val → p.groups[g].present = false) ∨
        (src.kind = .machine ∧ ∀ i : Fin 4, src.index = i.val → p.machines[i].present = false)) ∧
      (∀ v : State, v.store.selected = s.store.selected.other → v.swapEquipment old p =
        State.momentary ((List.finRange 4).foldl (State.swapMachine old p)
          (State.swapLights { v with faults := { v.faults with advisory := p.advisory, info := p.info } } old p))
          .planActivated ⟨.plan, if s.store.selected = .a then 1 else 0⟩ .info) ∧
      (∀ (v w : State) (i : Fin 4) (m r : MachineRec), p.machines[i].present = true →
        (∀ q, old = some q → q.machines[i] ≠ p.machines[i]) →
        r = { v.barrier.machines[i] with tLeave := p.machines[i].tLeave, tTravel := p.machines[i].tTravel } →
        m = r.fromDetectors v.clock true →
        w = { v with barrier := { v.barrier with machines := v.barrier.machines.set i m }
                     crossing := { v.crossing with lastDir := v.crossing.lastDir.set i none } } →
        v.swapMachine old p i =
          if m.state = .failed then
            w.raise .machineFailed ⟨.machine, i.val⟩ (if v.crossing.state = .opened then .urgent else .safety)
          else if r.state ≠ .failed then w
          else if v.crossing.state = .opened then (w.clear .machineFailed ⟨.machine, i.val⟩).sendMachine i .raise
          else w.clear .machineFailed ⟨.machine, i.val⟩) ∧
      ∀ (v : State) (rest : State → State),
        (∀ w, rest w = ({ w with crossing := { w.crossing with demandView := w.demandsNow, islandView := w.islandsNow } } :
          State).elect.forceDoubtful.tell.causesChanged) →
        (v.crossing.state = .noPlan → v.swapCrossing = rest (v.enterLowerEntry.clear .crossingNoPlan ⟨.crossing, 0⟩)) ∧
        (v.crossing.state ≠ .noPlan → v.swapCrossing = rest v)) ∧
    ∀ (p : Plan) (old : Option Plan) (t : State), p = planOf s.store.standby.image → old = s.store.plan → t = s.swap →
      t.clock = s.clock ∧ t.lif.wrongSide = [] ∧ t.faults.advisory = p.advisory ∧ t.faults.info = p.info ∧
      (∀ (i : Nat) (e : DpEntry), p.dps[i]? = some e →
        (∀ h : Fin 8, newlyNamed old p h = true → dpOfHead p.dps h ≠ some i) →
        (∀ (j : Nat) (x : DpEntry) (r : DpRec), (dpsBefore old)[j]? = some x → s.dps[j]? = some r → sameDp x e = true →
          x.side = e.side → x.track = e.track →
          (∀ (k : Nat) (y : DpEntry), k < j → (dpsBefore old)[k]? = some y → sameDp y e = false) → t.dps[i]? = some r) ∧
        ((∀ x ∈ dpsBefore old, sameDp x e = true → x.side ≠ e.side ∨ x.track ≠ e.track) →
          t.dps[i]? = some (DpRec.fresh e.side (s.clock + BitVec.ofNat 32 p.silence)))) ∧
      ((∀ h : Fin 8, newlyNamed old p h = true → s.heads[h].failed = false) →
        (∀ (i : Nat) (e : SectionEntry), p.sects[i]? = some e →
          (∀ (j : Nat) (x : SectionEntry) (r : SectRec), (sectsBefore old)[j]? = some x → s.sects[j]? = some r → x.id = e.id →
            x.track = e.track → sameBounds (dpsBefore old) p.dps x.bounds e.bounds = true →
            (∀ (k : Nat) (y : SectionEntry), k < j → (sectsBefore old)[k]? = some y → y.id ≠ e.id) → t.sects[i]? = some r) ∧
          ((∀ x ∈ sectsBefore old, x.id = e.id → x.track = e.track →
              sameBounds (dpsBefore old) p.dps x.bounds e.bounds = false) →
            t.sects[i]? = some (SectRec.fresh s.clock .plan))) ∧
        ∀ (i : Nat) (a : ApproachEntry), p.approaches[i]? = some a → t.demands[i]? = some
          (if (sightOf p a t.sects).doubt = true then
            { DemandRec.created s.clock with state := .warning, forced := true, cause := .forced, ts := some s.clock }
          else DemandRec.created s.clock)) ∧
      (∀ h : Fin 8, (newlyNamed old p h = false → t.heads[h] = s.heads[h]) ∧
        (newlyNamed old p h = true → ∀ (r : HeadRec) (m : Moment), m = ⟨s.clock, s.us⟩ → r = { s.heads[h] with
            a := { s.heads[h].a with since := if s.heads[h].a.level then some m else none, limit := p.pmax * 1000 }
            b := { s.heads[h].b with since := if s.heads[h].b.level then some m else none, limit := p.pmax * 1000 } } →
          t.heads[h] = { r with seq := r.seq + 1, earliest := none, lastSent := s.clock, sentHealth := r.healthAt s.clock,
                                owed := false })) ∧
      (∀ (g : Fin 4) (k : LampKind) (l l' : Lamp), l = s.lights.groups[g].lamp k → l' = t.lights.groups[g].lamp k →
        (p.groups[g].present = false ∨ (∃ q, old = some q ∧ q.groups[g].present = true ∧ q.groups[g] = p.groups[g]) →
          l' = { l with driven := l'.driven }) ∧
        (p.groups[g].present = false → (s.lights.command = .noPlan → s.crossing.state = .noPlan) → l'.driven = false) ∧
        (p.groups[g].present = true → (∀ q, old = some q → q.groups[g].present = false ∨ q.groups[g] ≠ p.groups[g]) →
          l' = { l with state := .unknown, good := 0, bad := 0, kind := .none, enabled := true, lit := false,
                        driven := l'.driven })) ∧
      (s.crossing.state = .noPlan → old = none → t.crossing.state = .lowerEntry ∧ t.crossing.entered = s.clock ∧
        t.crossing.loweringStart = some s.clock ∧ t.crossing.exitTimer = some (s.clock + BitVec.ofNat 32 p.tExit) ∧
        t.crossing.exitRun = false) ∧
      ∀ (i : Fin 4) (m r : MachineRec),
        m = { s.barrier.machines[i] with tLeave := p.machines[i].tLeave, tTravel := p.machines[i].tTravel } →
        r = m.fromDetectors s.clock true →
        (s.crossing.state = .opened ∨ (s.crossing.state = .noPlan ∧ old = none) → p.machines[i].present = false →
          t.barrier.machines[i] = { m with state := .halted, drive := none, commanded := none, leaveBy := none,
                                           travelBy := none, leaveMet := false, cause := .none }) ∧
        (s.crossing.state = .opened → p.machines[i].present = true →
          ((∃ q, old = some q ∧ q.machines[i] = p.machines[i]) → t.barrier.machines[i] = s.barrier.machines[i]) ∧
          ((∀ q, old = some q → q.machines[i] ≠ p.machines[i]) → t.barrier.machines[i] =
            if s.barrier.machines[i].state = .failed ∧ r.state ≠ .failed then r.command s.clock .raise else r)) ∧
        (s.crossing.state = .noPlan → old = none → p.machines[i].present = true → t.barrier.machines[i] =
          r.command s.clock (if p.machines[i].role = .entry then .lower else .raise))

/-- What the end of a step adds to a command's effect when it makes no swap: reports are selected, a STATUS is built if its
content has changed, the transmitters start, and reports are selected again (the model's choice, log 10); so traffic alone
changes, and for a fault record only its report state and ack deadline. A STATUS is built and offered exactly when the box
port is ACTIVE, the part has a station address and the content differs from the last one built (R191); it takes the place of
one waiting in class 3, else joins its tail, or is counted where class 3 is full (R42). An idle box transmitter takes class 3
first, then the highest of classes 2 to 0 that holds a telegram and has credit, spending one, and sets the credits to the
weights when none has (R43); an idle field transmitter takes its oldest (R44). While the process runs, with a place in the
window and room in class 2, the pending record of the highest enabled class and lowest slot becomes SENT and its REPORT is
offered, until a condition fails (R185). A part without a station address (R27) takes no record, since it originates no
telegram; that is the model's inference (log 23). -/
def Obligations.FinishLeavesAllButTraffic : Prop :=
  ∀ s : State, LineFrame s s.finish ∧
    s.finish = s.selectReports.statusIfChanged.startSending.selectReports ∧ s.startSending = s.startBox.startField ∧
    (s.builder.last = some s.statusNow ∨ s.lif.box.state ≠ .active ∨ s.lif.station = none → s.statusIfChanged = s) ∧
    (∀ a, s.builder.last ≠ some s.statusNow → s.lif.box.state = .active → s.lif.station = some a →
      s.statusIfChanged = State.offerStatus { s with builder := ⟨some s.statusNow, some s.clock⟩ }
        ⟨0, a, .status s.statusNow, .own⟩) ∧
    (s.lif.box.state = .active → ∀ w : Waiting,
      ((∃ x ∈ s.lif.q3, ∃ c, x.payload = .status c) → s.offerStatus w =
        State.count { s with lif := { s.lif with q3 := s.lif.q3.map fun x => match x.payload with
          | .status _ => w
          | _ => x } } .box fun c => { c with replaced := min 65535 (c.replaced + 1) }) ∧
      ((∀ x ∈ s.lif.q3, ∀ c, x.payload ≠ .status c) →
        (s.lif.q3.length < 16 → s.offerStatus w = { s with lif := { s.lif with q3 := s.lif.q3 ++ [w] } }) ∧
        (16 ≤ s.lif.q3.length → s.offerStatus w = s.count .box fun c => { c with full := min 65535 (c.full + 1) }))) ∧
    (∀ n, (s.finish.faults.get n).map (fun r => { r with report := .pending, ackBy := none }) =
      (s.faults.get n).map (fun r => { r with report := .pending, ackBy := none })) ∧
    (s.lif.box.state ≠ .active ∨ s.lif.box.sending ≠ none → s.startBox = s) ∧
    (s.lif.box.state = .active → s.lif.box.sending = none → ∀ (w : Waiting) (q : List Waiting) (b : PortRec),
      b = { s.lif.box with sending := some (w.send s.pins.fast s.moment) } →
      (s.lif.q3 = w :: q → s.startBox = { s with lif := { s.lif with box := b, q3 := q } }) ∧
      (s.lif.q3 = [] → s.lif.q2 = w :: q → 0 < s.lif.credit2 →
        s.startBox = { s with lif := { s.lif with box := b, q2 := q, credit2 := s.lif.credit2 - 1 } }) ∧
      (s.lif.q3 = [] → s.lif.q2 = [] ∨ s.lif.credit2 = 0 → s.lif.q1 = w :: q → 0 < s.lif.credit1 →
        s.startBox = { s with lif := { s.lif with box := b, q1 := q, credit1 := s.lif.credit1 - 1 } }) ∧
      (s.lif.q3 = [] → s.lif.q2 = [] ∨ s.lif.credit2 = 0 → s.lif.q1 = [] ∨ s.lif.credit1 = 0 → s.lif.q0 = w :: q →
        0 < s.lif.credit0 →
        s.startBox = { s with lif := { s.lif with box := b, q0 := q, credit0 := s.lif.credit0 - 1 } }) ∧
      (s.lif.q3 = [] → s.lif.q2 = [] ∨ s.lif.credit2 = 0 → s.lif.q1 = [] ∨ s.lif.credit1 = 0 →
        s.lif.q0 = [] ∨ s.lif.credit0 = 0 → 0 < s.weight2 → 0 < s.weight1 → 0 < s.weight0 →
        ¬ (s.lif.q2 = [] ∧ s.lif.q1 = [] ∧ s.lif.q0 = []) → s.startBox = State.startBox { s with
          lif := { s.lif with credit2 := s.weight2, credit1 := s.weight1, credit0 := s.weight0 } }) ∧
      (s.lif.q3 = [] → s.lif.q2 = [] → s.lif.q1 = [] → s.lif.q0 = [] → s.startBox = s)) ∧
    (∀ (w : Waiting) (q : List Waiting), s.lif.field.state = .active → s.lif.field.sending = none → s.lif.qf = w :: q →
      s.startField = { s with lif := { s.lif with
        qf := q, field := { s.lif.field with sending := some (w.send s.pins.fast s.moment) } } }) ∧
    (s.lif.field.state ≠ .active ∨ s.lif.field.sending ≠ none ∨ s.lif.qf = [] → s.startField = s) ∧
    s.selectReports.takeReport = s.selectReports ∧
    (s.lif.station = none ∨ s.faults.process ≠ .running ∨ 4 ≤ s.faults.window.length ∨ s.lif.box.state ≠ .active ∨
      16 ≤ s.lif.q2.length ∨
      (∀ n r, s.faults.get n = some r → r.report = .pending → s.faults.enabled r.cls = false) → s.takeReport = s) ∧
    ∀ (a : Byte) (n : Nat) (r : FaultRec) (rank : FaultClass → Nat), rank .info = 0 → rank .advisory = 1 → rank .urgent = 2 →
      rank .safety = 3 → s.lif.station = some a → s.faults.process = .running → s.faults.window.length < 4 →
      s.lif.box.state = .active → s.lif.q2.length < 16 → s.faults.get n = some r → r.report = .pending →
      s.faults.enabled r.cls = true →
      (∀ m x, s.faults.get m = some x → x.report = .pending → s.faults.enabled x.cls = true →
        rank x.cls < rank r.cls ∨ (x.cls = r.cls ∧ n ≤ m)) →
      ∃ u : FaultTable, s.takeReport = { s with faults := u, lif := { s.lif with
          q2 := s.lif.q2 ++ [⟨0, a, .report ⟨n, r.change, r.code, r.source, r.cls, r.active, r.latched, r.raises, r.first, r.last⟩,
            .own⟩] } } ∧
        u.get n = some { r with report := .sent, ackBy := some (s.clock + BitVec.ofNat 32 5000) } ∧
        (∀ m, m ≠ n → u.get m = s.faults.get m) ∧ u.window = s.faults.window ++ [n] ∧
        u = { s.faults with ordinary := u.ordinary, overflow := u.overflow, window := u.window }

/-- The bank selection and the plan in force move only at a swap: START, PLAN ACTIVATE and a telegram apart (a telegram may
carry PLAN ACTIVATE), and but for the events that a local head's COUNT follows, a command leaves both to the end of the step.
One of those events, or the COUNT of a line DP delivered, leaves the Plan Store as it is or makes the one swap that an
activation waited for, as R21 says of the banks (R20, R21). That the Plan Store looks for its condition after each event of a
COUNT, and otherwise once at the end of the step, so that any other command leaves it until then, is the model's choice (log
10). -/
def Obligations.SelectionMovesOnlyAtASwap : Prop :=
  (∀ (c : Instr) (s : State), c ≠ .start → (∀ tag i v, c ≠ .planActivate tag i v) →
    (∀ p b us, c ≠ .telegramReceived p b us) → (∀ h k b us, c ≠ .headChannelEdge h k b us) → (∀ h k, c ≠ .headStuck h k) →
    (∀ h, c ≠ .oneChannelExpiry h) → (∀ h, c ≠ .headHeartbeat h) → c ≠ .restartedFlagClears →
    (∀ tag n, c ≠ .resetEquipmentHead tag n) →
    ∃ u : State, exec c s = .next u.settle ∧ u.store.selected = s.store.selected ∧ u.store.plan = s.store.plan) ∧
  ∀ (s : State) (moved : State → Prop),
    (∀ t, moved t ↔ t.store = s.store ∨
      (s.store.pending = true ∧ t.store = s.store.swapped (planOf s.store.standby.image))) →
    (∀ (c : Instr) (t : State), ((∃ h k b us, c = .headChannelEdge h k b us) ∨ (∃ h k, c = .headStuck h k) ∨
        (∃ h, c = .oneChannelExpiry h) ∨ (∃ h, c = .headHeartbeat h) ∨ c = .restartedFlagClears ∨
        ∃ tag n, c = .resetEquipmentHead tag n) → exec c s = .next t → moved t) ∧
    ∀ (i : Nat) (d : Delivery), moved (s.deliver i d) ∧ moved (s.deliver i d).settle

/-! ### Reset and START -/

/-- The values that the spec gives START, in the part as delivered: no plan, NO_PLAN, AUTO, ports DOWN, reports running
(the inputs and straps of the delivered part are the model's choice, log 6). -/
def Obligations.ResetIsTheDeliveredPart : Prop :=
  State.reset.clock = 0 ∧ State.reset.pending = [] ∧ State.reset.store.bankA.state = .empty ∧
    State.reset.store.bankB.state = .empty ∧ State.reset.store.selected = .a ∧ State.reset.store.pending = false ∧
    State.reset.store.write = none ∧ State.reset.store.plan = none ∧ State.reset.crossing.state = .noPlan ∧
    State.reset.lights.command = .noPlan ∧ State.reset.lights.phase = .a ∧ State.reset.lights.length = 500 ∧
    (∀ i : Fin 4, State.reset.crossing.lastDir[i] = some .lower ∧ State.reset.barrier.machines[i].state = .lowering ∧
      State.reset.barrier.machines[i].drive = some .lower) ∧
    State.reset.authority.owner = .auto ∧ State.reset.authority.prior = .auto ∧ State.reset.lif.box.state = .down ∧
    State.reset.lif.field.state = .down ∧ State.reset.faults.process = .running ∧ State.reset.faults.window = [] ∧
    (∀ h : Fin 8, State.reset.heads[h].seq = 255 ∧ State.reset.heads[h].restarted = true ∧
      State.reset.heads[h].failed = false) ∧
    State.reset.dps = [] ∧ State.reset.sects = [] ∧ State.reset.demands = [] ∧ State.reset.builder = ⟨none, none⟩

/-- The state after reset keeps every law of the statements below. -/
def Obligations.ResetKeepsEveryLaw : Prop :=
  BanksLaw State.reset.store ∧ StoreLaw State.reset.store ∧ (∀ r ∈ State.reset.sects, SectLaw r) ∧
    FaultTableLaw State.reset.faults ∧ LightsLaw State.reset.lights ∧ (∀ i : Fin 4, MachineLaw State.reset.barrier.machines[i]) ∧
    ClosureInvariant State.reset ∧ SequenceLaw State.reset ∧ QueuesLaw State.reset.lif ∧ CountersLaw State.reset ∧
    HeldLaw State.reset

/-- START, from any state: the clock, the flag and the write record; both banks' contents but for the mixture in a stopped
write, and their states and check results (R17, R25); the ports, the owner, the DP and head records with the first COUNT of
each named head (R53, R66, R72), the sections and demands in doubt, the machines read from their detectors or lowered under
NO_PLAN, the zone (R157, R158, R168, R170), the crossing in AMBER with a plan and NO_PLAN without one, and the Fault Table
empty but for the START raises: START itself in slot 0, then PORT_DOWN of each port, SECTION_DISTURBED of each section,
CROSSING_NO_PLAN without a plan, MACHINE_FAILED of each machine that reads FAILED, and BATTERY_LOW and MAINS_OFF of an
active input, each once (R190, R174). The model's choice are: the order of the START raises after START itself (log 11), the
bits of the mixture (log 3), the limit that a channel is timed by (log 16), the last emission 0 and the last pulses none of
a head that no plan names (log 8), that without a plan a machine with UP and DOWN both active reads HALTED and LOWER then
proves it down at once (log 19), and the check result NONE of a bank that START does not check (log 44). -/
def Obligations.StartSetsEveryBlock : Prop :=
  ∀ s : State, Reaches .start s fun t =>
    t.clock = 0 ∧ t.pins = s.pins ∧ t.store.selected = s.store.selected ∧ t.store.pending = false ∧ t.store.write = none ∧
    t.lif.station = stationOf s.pins.addr ∧ t.lif.box.state = .down ∧ t.lif.field.state = .down ∧
    t.lif.q3 = [] ∧ t.lif.q2 = [] ∧ t.lif.q1 = [] ∧ t.lif.q0 = [] ∧ t.lif.qf = [] ∧ t.lif.wrongSide = [] ∧
    t.authority = AuthorityRec.start s.authority.key ∧
    (∀ r ∈ t.sects, r.state = .disturbed ∧ r.cause = .start ∧ r.count = 0) ∧
    (∀ d ∈ t.demands, d.state = .warning ∧ d.forced = true ∧ d.cause = .forced ∧ d.ts = some 0) ∧
    (t.store.plan = none → t.crossing.state = .noPlan ∧ t.lights.command = .noPlan) ∧
    (∀ p, t.store.plan = some p → t.crossing.state = .amber ∧ t.lights.command = .amber ∧
      t.crossing.stateTimer = some (BitVec.ofNat 32 p.tAmber)) ∧
    t.crossing.loweringStart = none ∧ t.crossing.remoteClose = false ∧ t.crossing.remoteOpen = false ∧
    (∀ g : Fin 4, t.lights.groups[g].redA.state = .unknown ∧ t.lights.groups[g].redB.state = .unknown) ∧
    t.faults.process = .running ∧ t.faults.window = [] ∧ t.faults.timeouts = 0 ∧
    (∃ r, t.faults.ordinary[0] = some r ∧ r.code = .start ∧ r.source = theCrossing ∧ r.active = false ∧
      r.report = .pending ∧ r.change = 0) ∧
    (∃ acts : List FaultAct,
      t.faults = acts.foldl (FaultTable.act 0 t.tDrain) (FaultTable.start (t.par true Plan.advisory) (t.par true Plan.info)) ∧
      acts.Nodup ∧ acts.head? = some (.moment .start ⟨.crossing, 0⟩ .info) ∧
      ∀ x, x ∈ acts ↔ x = .moment .start ⟨.crossing, 0⟩ .info ∨ x = .raise .portDown ⟨.port, 0⟩ .urgent ∨
        x = .raise .portDown ⟨.port, 1⟩ .urgent ∨
        (∃ (j : Nat) (e : SectionEntry), t.sectTable[j]? = some e ∧
          x = .raise .sectionDisturbed ⟨.sect, j⟩ (if e.kind = .island then .safety else .urgent)) ∨
        (t.store.plan = none ∧ x = .raise .crossingNoPlan ⟨.crossing, 0⟩ .safety) ∨
        (∃ i : Fin 4, t.barrier.machines[i].state = .failed ∧ x = .raise .machineFailed ⟨.machine, i.val⟩ .safety) ∨
        (s.pins.battLow = true ∧ x = .raise .batteryLow ⟨.cabinet, 0⟩ .advisory) ∨
        (s.pins.mainsOff = true ∧ x = .raise .mainsOff ⟨.cabinet, 0⟩ .advisory)) ∧
    t.builder = ⟨none, none⟩ ∧
    (∀ (i : Nat) (e : DpEntry), t.dpTable[i]? = some e →
      (e.source = .line → t.dps[i]? = some
        { state := .unseen, baseline := false, seq := 0, inc := 0, dec := 0, health := .ok, restart := false, port := e.side,
          lastTime := 0, deadline := some (BitVec.ofNat 32 t.silence), missed := 0, deltaInc := 0, deltaDec := 0,
          lastEvent := none }) ∧
      ∀ h : Fin 8, dpOfHead t.dpTable h = some i → t.dps[i]? = some
        { state := .live, baseline := true, seq := 0, inc := 0, dec := 0, health := .ok, restart := true, port := .localHead,
          lastTime := 0, deadline := some (BitVec.ofNat 32 t.silence), missed := 0, deltaInc := 0, deltaDec := 0,
          lastEvent := none }) ∧
    (∀ h : Fin 8, t.heads[h] =
      { HeadRec.start t.pmaxMicros s.heads[h].a.level s.heads[h].b.level with seq := if t.named h then 0 else 255 }) ∧
    t.barrier.zone = ⟨s.barrier.zone.occupied, false, none, none, false⟩ ∧
    (∀ (i : Fin 4) (m r : MachineRec), m = t.barrier.machines[i] → r = s.barrier.machines[i] →
      m.up = r.up ∧ m.down = r.down ∧ m.boom = r.boom ∧
      (∀ p, t.store.plan = some p → m.tLeave = p.machines[i].tLeave ∧ m.tTravel = p.machines[i].tTravel ∧ m.drive = none ∧
        m.commanded = none ∧ m.cmdTime = none ∧ m.leaveBy = none ∧ m.travelBy = none ∧ m.lastTravel = none ∧
        m.state = (if p.machines[i].present = false then .halted else if r.boom = false ∨ (r.up = true ∧ r.down = true) then .failed
          else if r.up = true then .upProved else if r.down = true then .downProved else .halted) ∧
        m.cause = (if p.machines[i].present = false then .none else if r.boom = false then .boomLost
          else if r.up = true ∧ r.down = true then .detectorConflict else .none)) ∧
      (t.store.plan = none → m.tLeave = 5000 ∧ m.tTravel = 30000 ∧ m.commanded = some .lower ∧ m.cause = .none ∧
        (r.down = true → m.state = .downProved ∧ m.drive = none) ∧
        (r.down = false → m.state = .lowering ∧ m.drive = some .lower ∧ m.cmdTime = some 0 ∧ m.travelBy = some 30000))) ∧
    ∀ (x x' y y' : Bank), x = s.store.bank s.store.selected → x' = t.store.bank s.store.selected →
      y = s.store.standby → y' = t.store.standby →
      x'.contents = x.contents ∧ (x.state = .empty → x' = { x with result := .none, planId := 0, version := 0 }) ∧
      (x.state ≠ .empty → checkImage t.lif.station x.image = .checked → x' =
        { x with state := .active, result := .checked, planId := u16 x.image 0, version := u8 x.image 2 }) ∧
      (∀ item place, x.state ≠ .empty → checkImage t.lif.station x.image = .bad item place → x' =
        { x with state := .bad, result := .bad item place, planId := 0, version := 0 }) ∧
      t.store.plan = (if x'.state = .active then some (planOf x'.image) else none) ∧
      (y.state ≠ .checked → y' = { y with contents := y'.contents, result := .none, planId := 0, version := 0 }) ∧
      (y.state = .checked → checkImage t.lif.station y'.image = .checked → y' =
        { contents := y'.contents, state := .checked, result := .checked, planId := u16 y'.image 0, version := u8 y'.image 2 }) ∧
      (∀ item place, y.state = .checked → checkImage t.lif.station y'.image = .bad item place → y' =
        { contents := y'.contents, state := .bad, result := .bad item place, planId := 0, version := 0 }) ∧
      (s.store.write = none → y'.contents = y.contents) ∧
      ∀ w, s.store.write = some w → BanksLaw s.store → ∀ a,
        (a < 64 * w.block ∨ 64 * w.block + 64 ≤ a → y'.contents.read a = y.contents.read a) ∧
        (64 * w.block ≤ a → a < 64 * w.block + 64 → ∃ mask : Byte, y'.contents.read a =
          (w.data.getD (a - 64 * w.block) 0 &&& mask) ||| (y.contents.read a &&& ~~~mask))

/-! ### The laws that every step keeps -/

/-- Banks stay in canonical form, and the Plan Store's states stay in order (R14 to R19). -/
def Obligations.StepKeepsThePlanStore : Prop :=
  ∀ s t : State, BanksLaw s.store → StoreLaw s.store → step s = .next t → BanksLaw t.store ∧ StoreLaw t.store

/-- The law of the part on counts (R76), with the sweep (R83). -/
def Obligations.StepKeepsTheSectionLaw : Prop :=
  ∀ s t : State, (∀ r ∈ s.sects, SectLaw r) → step s = .next t → ∀ r ∈ t.sects, SectLaw r

/-- The laws of the part on the table and the window (R173, R185), with every record's own. -/
def Obligations.StepKeepsTheFaultTableLaw : Prop :=
  ∀ s t : State, FaultTableLaw s.faults → step s = .next t → FaultTableLaw t.faults

/-- The law of the part on the reds (R148), with the cut-off of a short (R152). -/
def Obligations.StepKeepsTheRedsApart : Prop :=
  ∀ s t : State, LightsLaw s.lights → step s = .next t → LightsLaw t.lights

/-- What `MachineLaw` says of every machine: a drive is on exactly while the machine moves, in the direction it moves, and a
travel deadline is set exactly then, T_travel after the command (R161); a leave deadline is set exactly while it moves with
leave not met, T_leave after the command (R160); a machine is FAILED exactly while it has a failure cause, and then has a
failure time and no direction (R157, R165). That a drive goes off when the deadline is reached is the subject of
`MachineDeadlinesFailTheMachine`, and that the deadline's event then comes that of `IdleStepAdvancesTheClock`. -/
def Obligations.StepKeepsTheMachineLaw : Prop :=
  ∀ s t : State, (∀ i : Fin 4, MachineLaw s.barrier.machines[i]) → step s = .next t →
    ∀ i : Fin 4, MachineLaw t.barrier.machines[i]

/-- What keeps the law of the part on closure (R113). -/
def Obligations.StepKeepsTheClosureInvariant : Prop :=
  ∀ s t : State, ClosureInvariant s → step s = .next t → ClosureInvariant t

/-- Where that invariant holds, a demand in WARNING or CLEARING, or an island that is not CLEAR, means neither OPEN nor
RAISING (R113). -/
def Obligations.ClosureInvariantKeepsTheRoadClosed : Prop :=
  ∀ s : State, ClosureInvariant s →
    ((∃ d ∈ s.demands, d.state = .warning ∨ d.state = .clearing) ∨
      (∃ p i e r, s.store.plan = some p ∧ p.sects[i]? = some e ∧ e.kind = .island ∧ islandOf p e.track = some i ∧
        s.sects[i]? = some r ∧ r.state ≠ .clear)) →
    s.crossing.state ≠ .opened ∧ s.crossing.state ≠ .raising

/-- The timers run in the states that use them, and a test step exactly in TEST_ACTIVE (R114 to R118, R125). START apart, the
owner changes at a step only with the owner-change time at now, and where the lock is free before or after the step, or where
the crossing has passed within the step through OPEN to AMBER or through CLOSED or DEGRADED to RAISING (R132, R133). -/
def Obligations.StepKeepsTheSequenceLaw : Prop :=
  ∀ s t : State, step s = .next t → (SequenceLaw s → SequenceLaw t) ∧
    (s.pending.head? ≠ some .start → t.authority.owner ≠ s.authority.owner → t.authority.changed = t.clock ∧
      (s.locked = false ∨ t.locked = false ∨
        ((t.crossing.state = .amber ∨ t.crossing.state = .raising) ∧ t.crossing.entered = t.clock)))

/-- Room in the queues, one STATUS at most, nothing queued on a port that is not ACTIVE; lists of times and axle counters in
their ranges (R27, R42, R44, R45, R53, R66). What a named head owes is carried by a COUNT unless a further event of the head
waits (R72; that is the model's choice, log 37). -/
def Obligations.StepKeepsQueuesAndCounters : Prop :=
  ∀ s t : State, step s = .next t →
    (QueuesLaw s.lif → QueuesLaw t.lif) ∧ (CountersLaw s → CountersLaw t) ∧ (HeldLaw s → HeldLaw t)

/-! ### The crossing plan -/

/-- PLAN BLOCK: RETRY during a write, REFUSED_STATE while an activation waits, REFUSED_RANGE for a bad number or length, else
taken: the standby bank LOADING and the write record entered (R16). -/
def Obligations.PlanBlockIsTakenOrRefused : Prop :=
  ∀ (tag : Byte) (args : List Byte) (s : State),
    (s.store.write ≠ none → exec (.planBlock tag args) s = .next (s.hear.reply 0 tag .retry .none).settle) ∧
    (s.store.write = none → s.store.pending = true →
      exec (.planBlock tag args) s = .next (s.hear.reply 0 tag .refusedState .none).settle) ∧
    (s.store.write = none → s.store.pending = false → (∀ k data, args = k :: data → 63 < k.toNat ∨ data.length ≠ 64) →
      exec (.planBlock tag args) s = .next (s.hear.reply 0 tag .refusedRange .none).settle) ∧
    ∀ k data, s.store.write = none → s.store.pending = false → args = k :: data → k.toNat ≤ 63 → data.length = 64 →
      exec (.planBlock tag args) s = .next (State.settle { s.hear with
        store := { s.store.onBank s.store.selected.other
            (fun b => { b with state := .loading, result := .none, planId := 0, version := 0 }) with
          write := some ⟨k.toNat, tag, data, s.clock⟩ } })

/-- The completion of a block write: the 64 bytes of the block become the command's data, every other byte of both banks reads
as before, the write record empties, DONE is offered (R16). -/
def Obligations.BlockWriteStoresItsBlock : Prop :=
  ∀ (w : BlockWrite) (s : State), s.store.write = some w → BanksLaw s.store → NoActivation s →
    ∃ u : State, exec .planBlockWriteComplete s = .next (u.reply 0 w.tag .done (.block w.block)).finish ∧
      u = { s with store := u.store } ∧ u.store.write = none ∧ u.store.selected = s.store.selected ∧
      u.store.bank s.store.selected = s.store.bank s.store.selected ∧
      (∀ a, u.store.standby.contents.read a =
        if 64 * w.block ≤ a ∧ a < 64 * w.block + 64 then w.data.getD (a - 64 * w.block) 0
        else s.store.standby.contents.read a) ∧
      u.store.standby = { s.store.standby with contents := u.store.standby.contents } ∧ u.store.plan = s.store.plan

/-- PLAN CHECK: RETRY, REFUSED_STATE, or the plan check made and its result entered and answered (R18). The plan check of an
image is CHECKED exactly when no item is broken: LENGTH, CRC and RANGE over the header, RANGE of each entry of the equipment,
DP, section and approach tables, IDENTITY, REFERENCE, ISLAND, ORDER, INDEX and PREDICTION (R6, R8 to R13, R51, R52). A BAD
result names the first broken item in the order of the table, and nothing before it is broken (R12). That an item looks at
the equipment, the DPs, the sections and the approaches in this order, at each table from index 0, and that of two entries of
one identity the later is the one that breaks it, is the model's choice but for PREDICTION (log 14). -/
def Obligations.PlanCheckJudgesTheStandbyBank : Prop :=
  (∀ (tag : Byte) (s : State),
    (s.store.write ≠ none → exec (.planCheck tag) s = .next (s.hear.reply 0 tag .retry .none).settle) ∧
    (s.store.write = none → (s.store.pending = true ∨ s.store.standby.state = .empty) →
      exec (.planCheck tag) s = .next (s.hear.reply 0 tag .refusedState .none).settle) ∧
    (s.store.write = none → s.store.pending = false → s.store.standby.state ≠ .empty →
      (checkImage s.lif.station s.store.standby.image = .checked →
        exec (.planCheck tag) s = .next (State.settle (State.reply { s.hear with
          store := s.store.onBank s.store.selected.other fun b =>
            { b with state := .checked, result := .checked, planId := u16 b.image 0, version := u8 b.image 2 } }
          0 tag .done (.planChecked (u16 s.store.standby.image 0) (u8 s.store.standby.image 2)
            (declaredOf s.store.standby.image))))) ∧
      ∀ item place, checkImage s.lif.station s.store.standby.image = .bad item place →
        exec (.planCheck tag) s = .next (State.settle (State.reply { s.hear with
          store := s.store.onBank s.store.selected.other fun b =>
            { b with state := .bad, result := .bad item place, planId := 0, version := 0 } }
          0 tag .done (.planBad item place))))) ∧
  (∀ b : Bank, b.image.length = 4096) ∧
  ∀ (station : Option Byte) (b : List Byte), b.length = 4096 →
    (checkImage station b = .checked ↔
      ∀ item, ¬ ItemBroken b item ∧ ∀ (t : PlanTable) (i : Nat), ¬ EntryBroken station b item t i) ∧
    (checkImage station b ≠ .checked → ∃ item place, checkImage station b = .bad item place) ∧
    ∀ item place, checkImage station b = .bad item place →
      (∀ k, itemOrder k < itemOrder item → ¬ ItemBroken b k ∧ ∀ (t : PlanTable) (i : Nat), ¬ EntryBroken station b k t i) ∧
      (place = none → ItemBroken b item) ∧
      ∀ (t : PlanTable) (i : Nat), place = some ⟨t, i⟩ → ¬ ItemBroken b item ∧ EntryBroken station b item t i ∧
        ∀ (u : PlanTable) (j : Nat), tableOrder u < tableOrder t ∨ (u = t ∧ j < i) → ¬ EntryBroken station b item u j

/-- PLAN ACTIVATE: refused off CHECKED or for another plan, answered PENDING twice over, or the flag set and the swap made at
once when the activation condition holds (R19, R20). Where heads owe COUNTs for changes at this clock value, the condition is
asked of the state that these COUNTs leave too: they go out before the swap, or the answer is PENDING (R72; the model's
choice, log 37). -/
def Obligations.PlanActivateSetsTheFlagOrSwaps : Prop :=
  ∀ (tag : Byte) (i : BitVec 16) (v : Byte) (s : State),
    ((s.store.standby.state ≠ .checked ∨ s.store.standby.planId ≠ i.toNat ∨ s.store.standby.version ≠ v.toNat) →
      exec (.planActivate tag i v) s = .next (s.hear.reply 0 tag .refusedState .none).settle) ∧
    (s.store.standby.state = .checked → s.store.standby.planId = i.toNat → s.store.standby.version = v.toNat →
      (s.store.pending = true →
        exec (.planActivate tag i v) s = .next (s.hear.reply 0 tag .done .activationPending).settle) ∧
      (s.store.pending = false → s.activationCondition = false →
        exec (.planActivate tag i v) s =
          .next (State.finish (State.reply { s.hear with store := { s.store with pending := true } } 0 tag .done
            .activationPending))) ∧
      (s.store.pending = false → s.activationCondition = true → ∀ w : State,
        w = { s.hear with store := { s.store with pending := true } } →
        (w.owedCarried.activationCondition = true →
          exec (.planActivate tag i v) s = .next (w.owedCarried.swap.reply 0 tag .done .activated).finish) ∧
        (w.owedCarried.activationCondition = false →
          exec (.planActivate tag i v) s = .next (w.reply 0 tag .done .activationPending).settle) ∧
        ((∀ h : Fin 8, s.heads[h].owed = false) → w.owedCarried.activationCondition = true ∧
          exec (.planActivate tag i v) s = .next (w.swap.reply 0 tag .done .activated).finish)))

/-- PLAN CANCEL: the flag returns to IDLE and the bank stays CHECKED, or REFUSED_STATE; once the flag is IDLE, PLAN BLOCK and
PLAN CHECK are taken again (R24). -/
def Obligations.PlanCancelReturnsTheFlag : Prop :=
  ∀ (tag : Byte) (s : State),
    (s.store.pending = true →
      exec (.planCancel tag) s =
        .next (State.finish (State.reply { s.hear with store := { s.store with pending := false } } 0 tag .done .none))) ∧
    (s.store.pending = false → exec (.planCancel tag) s = .next (s.hear.reply 0 tag .refusedState .none).finish) ∧
    (∀ t, exec (.planCancel tag) s = .next t → t.store = { s.store with pending := false } ∧
      (t.store.write = none → t.store.standby.state = .checked →
        (∀ tag' k data, k.toNat ≤ 63 → data.length = 64 → Reaches (.planBlock tag' (k :: data)) t fun v =>
          v.store.write = some ⟨k.toNat, tag', data, s.clock⟩ ∧ v.store.standby.state = .loading) ∧
        ∀ tag', Reaches (.planCheck tag') t fun v => v.store.standby.state = .checked ∨ v.store.standby.state = .bad))

/-! ### The line -/

/-- Fill in the port's sense is line activity: it takes a DOWN port to CHECKING; an ISOLATED port ignores it (R28, R29, R31).
Four complement bytes invert the polarity in DOWN and CHECKING alone; in DOWN they are no line activity, and the fill that
follows in the new sense is (R30). The transmit pair carries a telegram in transmission, nothing in ISOLATED, and idle fill,
55 hexadecimal, otherwise (R28, R29, R31, R44, R47). -/
def Obligations.FillAndComplementBytesMoveThePort : Prop :=
  ∀ (p : Port) (s : State),
    ((s.port p).state = .down → exec (.fillReceived p) s =
      .next (State.settle (s.onPort p fun r => { r with lastActivity := s.clock, state := .checking, checkStart := s.clock }))) ∧
    ((s.port p).state = .checking ∨ (s.port p).state = .active → exec (.fillReceived p) s =
      .next (State.settle (s.onPort p fun r => { r with lastActivity := s.clock }))) ∧
    ((s.port p).state = .isolated → exec (.fillReceived p) s = .next s.settle) ∧
    ((s.port p).state = .active ∨ (s.port p).state = .isolated → exec (.complementBytes p) s = .next s.settle) ∧
    (∀ u : State,
      u = (if (s.port p).inverted = true
           then (s.onPort p fun r => { r with inverted := false }).clear .linePolarity (portSource p)
           else (s.onPort p fun r => { r with inverted := true }).raise .linePolarity (portSource p) .advisory) →
      ((s.port p).state = .down → exec (.complementBytes p) s = .next u.settle) ∧
      ((s.port p).state = .checking → exec (.complementBytes p) s =
        .next (State.settle (u.onPort p fun r => { r with checkStart := s.clock })))) ∧
    ((s.port p).state = .isolated → (s.port p).output = .nothing) ∧
    ((s.port p).state ≠ .isolated → (s.port p).sending = none → (s.port p).output = .fill 0x55) ∧
    (∀ x, (s.port p).state ≠ .isolated → (s.port p).sending = some x → (s.port p).output = .telegram x.frame) ∧
    ((s.port p).inverted = false → (s.port p).fillSeen = 0x55 ∧ (s.port p).complementSeen = 0xAA) ∧
    ((s.port p).inverted = true → (s.port p).fillSeen = 0xAA ∧ (s.port p).complementSeen = 0x55)

/-- 200 ms without line activity take a port from CHECKING or ACTIVE to DOWN with its queues empty; the box port's credits
become the weights, a running report process is suspended, and every SENT record returns to PENDING with its ack deadline
cancelled and its resend count one up, the window empty (R188); PORT_DOWN is raised unless the port came from CHECKING (R28,
R45). Earlier, nothing happens; that is the model's choice (log 2). -/
def Obligations.SilenceTakesThePortDown : Prop :=
  ∀ (p : Port) (s : State),
    ((s.port p).silentFor s.clock = false → exec (.portActivityTimeout p) s = .next s.settle) ∧
    ((s.port p).state = .checking ∨ (s.port p).state = .active → reached (after (s.port p).lastActivity 200) s.clock = true →
      ∃ u : State, u = { s with lif := u.lif, faults := u.faults } ∧ (u.port p).state = .down ∧
        exec (.portActivityTimeout p) s = .next (State.settle
          (if (s.port p).state = .checking then u else u.raise .portDown (portSource p) .urgent)) ∧
        (p = .box → u.lif.q3 = [] ∧ u.lif.q2 = [] ∧ u.lif.q1 = [] ∧ u.lif.q0 = [] ∧ u.lif.qf = s.lif.qf ∧
          u.lif.credit2 = s.weight2 ∧ u.lif.credit1 = s.weight1 ∧ u.lif.credit0 = s.weight0 ∧
          u.lif.box.counters.emptied = min 65535 (s.lif.box.counters.emptied +
            (s.lif.q3.length + s.lif.q2.length + s.lif.q1.length + s.lif.q0.length)) ∧
          u.lif.box.sending = s.lif.box.sending ∧
          u.faults.process = (if s.faults.process = .running then .suspended else s.faults.process) ∧
          u.faults.timeouts = s.faults.timeouts ∧ u.faults.advisory = s.faults.advisory ∧ u.faults.info = s.faults.info ∧
          (FaultTableLaw s.faults → u.faults.window = [] ∧ ∀ n, u.faults.get n = (s.faults.get n).map fun r =>
            if r.report = .sent then { r with report := .pending, ackBy := none, resend := min 255 (r.resend + 1) } else r)) ∧
        (p = .field → u.lif.qf = [] ∧ u.faults = s.faults ∧
          u.lif.field.counters.emptied = min 65535 (s.lif.field.counters.emptied + s.lif.qf.length)))

/-- 2000 ms of CHECKING make a port ACTIVE and clear PORT_DOWN; the box port then has a STATUS built (R29, R191). Before
that, nothing happens; that is the model's choice (log 2). -/
def Obligations.CheckingEndsInActive : Prop :=
  ∀ (p : Port) (s : State),
    ((s.port p).checked s.clock = false → exec (.checkingComplete p) s = .next s.settle) ∧
    ((s.port p).state = .checking → reached (after (s.port p).checkStart 2000) s.clock = true → NoActivation s →
      exec (.checkingComplete p) s =
        let u := (s.onPort p fun r => { r with state := .active }).clear .portDown (portSource p)
        .next (State.finish (if p = .box then u.buildStatus else u)))

/-- The times that have left a list go, and its condition ends with the last of them; the end of a transmission frees the
transmitter and is counted (R34, R35, R43, R44, R46). That the lists run out on an ISOLATED port too (log 40) and that the
end of a transmission before its time does nothing (log 2) are the model's choice. -/
def Obligations.LineTimeEventsEndWhatTheyTime : Prop :=
  ∀ (p : Port) (s : State),
    exec (.errorTimeExpiry p) s = .next (State.settle
      (let times := (s.port p).errorTimes.filter fun t => later (after t 10000) s.clock
       if (s.port p).lineErrors = true ∧ times = [] then
         (s.onPort p fun r => { r with errorTimes := times, lineErrors := false }).clear .lineErrors (portSource p)
       else s.onPort p fun r => { r with errorTimes := times })) ∧
    exec (.loopTimeExpiry p) s = .next (State.settle
      (let times := (s.port p).loopTimes.filter fun t => later (after t 10000) s.clock
       if (s.port p).lineLoop = true ∧ times = [] then
         (s.onPort p fun r => { r with loopTimes := times, lineLoop := false }).clear .lineLoop (portSource p)
       else s.onPort p fun r => { r with loopTimes := times })) ∧
    ∀ x, (s.port p).sending = some x →
      (x.ends.ms = s.clock →
        exec (.transmitEnd p) s = .next (State.settle (State.onPort { s with us := max s.us x.ends.us } p fun r =>
          { r with sending := none,
                   counters := { r.counters with transmitted := min 65535 (r.counters.transmitted + 1) } }))) ∧
      (later x.ends.ms s.clock = true → exec (.transmitEnd p) s = .next s.settle)

/-- A telegram that fails check 1 is an error and nothing else, and LINE_ERRORS is raised when the list then holds 21 times;
one from the part's own address or a head's is a loop discard and line activity, and LINE_LOOP is raised when the list then
holds 3; one that passes on a port that was not ACTIVE is a checking discard, and takes a DOWN port to CHECKING (R28, R29,
R33 to R35). An ISOLATED port takes none. -/
def Obligations.TelegramChecksDiscard : Prop :=
  ∀ (p : Port) (bytes : List Byte) (us : Nat) (s : State),
    ((s.port p).state = .isolated → exec (.telegramReceived p bytes us) s = .next s.settle) ∧
    ((s.port p).state ≠ .isolated → NoActivation s →
      (Telegram.check bytes = none → Reaches (.telegramReceived p bytes us) s fun t =>
        (t.port p).counters.errors = min 65535 ((s.port p).counters.errors + 1) ∧
        (t.port p).errorTimes.getLast? = some s.clock ∧ (t.port p).lastActivity = (s.port p).lastActivity ∧
        (t.port p).state = (s.port p).state ∧
        t = { s with us := max s.us us, lif := t.lif, faults := t.faults, builder := t.builder }) ∧
      ∀ x, Telegram.check bytes = some x →
        (s.lif.station = some x.src → Reaches (.telegramReceived p bytes us) s fun t =>
          (t.port p).counters.loops = min 65535 ((s.port p).counters.loops + 1) ∧
          (t.port p).counters.received = min 65535 ((s.port p).counters.received + 1) ∧
          (t.port p).loopTimes.getLast? = some s.clock ∧ (t.port p).lastActivity = s.clock ∧
          t = { s with us := max s.us us, lif := t.lif, faults := t.faults, builder := t.builder }) ∧
        (s.loops x.src = false → (s.port p).state = .checking ∨ (s.port p).state = .down →
          exec (.telegramReceived p bytes us) s =
          .next (State.finish (State.onPort { s with us := max s.us us } p fun r =>
            { r with lastActivity := s.clock, state := .checking,
                     checkStart := if r.state = .down then s.clock else r.checkStart,
                     counters := { r.counters with received := min 65535 (r.counters.received + 1),
                                                   checking := min 65535 (r.counters.checking + 1) } })))) ∧
    ((s.port p).state ≠ .isolated → ∀ (kept times : List Time) (u : State),
      (kept = (s.port p).errorTimes.filter (fun t => later (after t 10000) s.clock) → kept.length ≤ 21 →
        times = (if kept.length = 21 then kept.drop 1 else kept) ++ [s.clock] → Telegram.check bytes = none →
        u = State.onPort { s with us := max s.us us } p (fun r => { r with
          errorTimes := times, counters := { r.counters with errors := min 65535 (r.counters.errors + 1) } }) →
        (times.length = 21 → (s.port p).lineErrors = false → exec (.telegramReceived p bytes us) s = .next (State.settle
          (State.raise (u.onPort p fun r => { r with lineErrors := true }) .lineErrors (portSource p) .advisory))) ∧
        (times.length < 21 ∨ (s.port p).lineErrors = true → exec (.telegramReceived p bytes us) s = .next u.settle)) ∧
      ∀ x, Telegram.check bytes = some x → (∃ e ∈ s.dpTable, e.source = .head ∧ e.address = x.src) ∨ s.lif.station = some x.src →
        kept = (s.port p).loopTimes.filter (fun t => later (after t 10000) s.clock) → kept.length ≤ 3 →
        times = (if kept.length = 3 then kept.drop 1 else kept) ++ [s.clock] →
        u = State.onPort { s with us := max s.us us } p (fun r => { r with
          lastActivity := s.clock, state := if r.state = .down then .checking else r.state,
          checkStart := if r.state = .down then s.clock else r.checkStart, loopTimes := times,
          counters := { r.counters with received := min 65535 (r.counters.received + 1),
                                        loops := min 65535 (r.counters.loops + 1) } }) →
        (times.length = 3 → (s.port p).lineLoop = false → exec (.telegramReceived p bytes us) s = .next (State.settle
          (State.raise (u.onPort p fun r => { r with lineLoop := true }) .lineLoop (portSource p) .urgent))) ∧
        (times.length < 3 ∨ (s.port p).lineLoop = true → exec (.telegramReceived p bytes us) s = .next u.settle))

/-- On an ACTIVE port a COMMAND of the signal box is consumed, heard and taken by the decoder; one from anyone else, or on
the field port, is refused; another kind for the part itself is discarded. A telegram for another station is relayed to the
other port, a COUNT into box class 3 and any other into class 1, or counted as not active, full or, at 15 hops, over-hop; at
the start of its transmission hops is one up and the age has grown by the residence time and 1, staying 255 at most (R36 to
R38, R41). A COUNT of a line DP is delivered on its own side whatever becomes of the copy, and off the wrong-side set; on the
other side it enters that set and raises DP_WRONG_SIDE once (R39, R40). The decoder answers a name code outside 1 to 23
UNKNOWN, and arguments of another length than the table's, PLAN BLOCK apart, or a RESET EQUIPMENT of a kind above 2 or an
index above 11, 3 or 7, REFUSED_RANGE; each of the 23 codes with its arguments does what the command's own row does (R192).
That the row taken directly is the command after its telegram has been consumed (log 35) is the
model's choice. -/
def Obligations.TelegramsAreConsumedOrRelayed : Prop :=
  (∀ (name tag : Byte) (args : List Byte) (s : State),
    (name.toNat = 0 ∨ 23 < name.toNat → decodeAndRun (name :: tag :: args) s = s.reply 0 tag .unknown .none) ∧
    (∀ n, (name.toNat, n) ∈ [(1, 2), (2, 0), (3, 0), (4, 2), (5, 2), (6, 2), (7, 0), (8, 0), (9, 0), (10, 0), (11, 0), (12, 0),
        (13, 0), (14, 0), (15, 2), (17, 0), (18, 3), (19, 0), (20, 0), (21, 0), (22, 0), (23, 2)] → args.length ≠ n →
      decodeAndRun (name :: tag :: args) s = s.reply 0 tag .refusedRange .none) ∧
    (∀ kind index : Byte, 2 < kind.toNat ∨ (kind = 0 ∧ 11 < index.toNat) ∨ (kind = 1 ∧ 3 < index.toNat) ∨
        (kind = 2 ∧ 7 < index.toNat) →
      decodeAndRun [6, tag, kind, index] s = s.reply 0 tag .refusedRange .none) ∧
    ∀ (x y z : Byte) (c : Instr) (body : List Byte), (c, body) ∈
        [(.ackReport tag x y, [1, tag, x, y]), (.reportsStart tag, [2, tag]), (.reportsStop tag, [3, tag]),
         (.classEnable tag x y, [4, tag, x, y]), (.restoreSection tag x y, [5, tag, x, y]),
         (.resetEquipmentLamp tag x, [6, tag, 0, x]), (.resetEquipmentMachine tag x, [6, tag, 1, x]),
         (.resetEquipmentHead tag x, [6, tag, 2, x]), (.remoteRequest tag, [7, tag]), (.remoteRelease tag, [8, tag]),
         (.remoteClose tag, [9, tag]), (.remoteOpen tag, [10, tag]), (.localRelease tag, [11, tag]),
         (.localWithdraw tag, [12, tag]), (.testRequest tag, [13, tag]), (.testRelease tag, [14, tag]),
         (.testStep tag x y, [15, tag, x, y]), (.planBlock tag args, 16 :: tag :: args), (.planCheck tag, [17, tag]),
         (.planActivate tag (BitVec.ofNat 16 (256 * x.toNat + y.toNat)) z, [18, tag, x, y, z]), (.planCancel tag, [19, tag]),
         (.portIsolate tag, [20, tag]), (.portRestore tag, [21, tag]), (.clearAcked tag, [22, tag]),
         (.read tag x y, [23, tag, x, y])] →
      exec c s = .next (decodeAndRun body s.hear).settle) ∧
  ∀ (bytes : List Byte) (us : Nat) (x : Telegram) (s u : State), Telegram.check bytes = some x →
    s.loops x.src = false →
    (s.lif.box.state = .active →
      u = State.onPort { s with us := max s.us us } .box (fun r =>
        { r with lastActivity := s.clock,
                 counters := { r.counters with received := min 65535 (r.counters.received + 1) } }) →
      (s.lif.station = some x.dest → x.kind = kindCommand → x.src = 0 →
        exec (.telegramReceived .box bytes us) s = .next (State.settle (decodeAndRun x.body
          (u.hear.count .box fun c => { c with consumed := min 65535 (c.consumed + 1) })))) ∧
      (s.lif.station = some x.dest → x.kind = kindCommand → x.src ≠ 0 →
        exec (.telegramReceived .box bytes us) s = .next (State.settle
          ((u.count .box fun c => { c with refusedSource := min 65535 (c.refusedSource + 1) }).reply x.src (x.body.getD 1 0)
            .refusedSource .none)))) ∧
    (s.lif.field.state = .active → s.lif.station ≠ some x.dest → x.kind ≠ kindCount →
      u = State.onPort { s with us := max s.us us } .field (fun r =>
        { r with lastActivity := s.clock,
                 counters := { r.counters with received := min 65535 (r.counters.received + 1) } }) →
      (x.hops = 15 → exec (.telegramReceived .field bytes us) s = .next (State.settle
        (u.count .field fun c => { c with overHop := min 65535 (c.overHop + 1) }))) ∧
      (x.hops ≠ 15 → s.lif.box.state = .active → s.lif.q1.length < 16 →
        exec (.telegramReceived .field bytes us) s = .next (State.settle
          (State.count { u with lif := { u.lif with
              q1 := u.lif.q1 ++ [⟨x.dest, x.src, .relayed x.kind x.body, .relay x.hops x.age ⟨s.clock, max s.us us⟩⟩] } }
            .field fun c => { c with relayed := min 65535 (c.relayed + 1) })))) ∧
    (∀ (p : Port) (v : State), (s.port p).state = .active →
      u = State.onPort { s with us := max s.us us } p (fun r =>
        { r with lastActivity := s.clock,
                 counters := { r.counters with received := min 65535 (r.counters.received + 1) } }) →
      v = (if p = .box ∧ x.src = 0 then u.hear else u) →
      (s.lif.station = some x.dest → x.kind ≠ kindCommand → exec (.telegramReceived p bytes us) s = .next (State.settle
        (v.count p fun c => { c with unexpected := min 65535 (c.unexpected + 1) }))) ∧
      (s.lif.station = some x.dest → x.kind = kindCommand → p = .field →
        exec (.telegramReceived p bytes us) s = .next (State.settle
          ((v.count .field fun c => { c with refusedSource := min 65535 (c.refusedSource + 1) }).reply x.src (x.body.getD 1 0)
            .refusedSource .none))) ∧
      (s.lif.station ≠ some x.dest → x.kind ≠ kindCount ∨ lineDpOf s.dpTable x.src = none →
        exec (.telegramReceived p bytes us) s = .next (v.relay p x).settle) ∧
      ∀ (i : Nat) (e : DpEntry) (c : CountBody), s.lif.station ≠ some x.dest → x.kind = kindCount → countOf x.body = some c →
        lineDpOf s.dpTable x.src = some i → s.dpTable[i]? = some e →
        (e.side = sideOf p → ∀ w : State,
          w = (if x.src ∈ s.lif.wrongSide then State.clear { v.relay p x with lif := { (v.relay p x).lif with
                wrongSide := s.lif.wrongSide.filter (fun a => a ≠ x.src) } } .dpWrongSide ⟨.dp, i⟩
              else v.relay p x) →
          exec (.telegramReceived p bytes us) s = .next (State.settle
            ((w.count p fun c => { c with delivered := min 65535 (c.delivered + 1) }).deliver i ⟨c, s.clock, sideOf p,
              if x.age = 255 then none else some (s.clock - BitVec.ofNat 32 x.age.toNat)⟩))) ∧
        (e.side ≠ sideOf p → ∀ w : State,
          w = (v.relay p x).count p (fun c => { c with wrongSide := min 65535 (c.wrongSide + 1) }) →
          (x.src ∈ s.lif.wrongSide → exec (.telegramReceived p bytes us) s = .next w.settle) ∧
          (x.src ∉ s.lif.wrongSide → exec (.telegramReceived p bytes us) s = .next (State.settle (State.raise
            { w with lif := { w.lif with wrongSide := s.lif.wrongSide ++ [x.src] } } .dpWrongSide ⟨.dp, i⟩ .urgent))))) ∧
    (∀ w : Waiting, w = ⟨x.dest, x.src, .relayed x.kind x.body, .relay x.hops x.age ⟨s.clock, s.us⟩⟩ →
      (x.hops = 15 → ∀ p, s.relay p x = s.count p fun c => { c with overHop := min 65535 (c.overHop + 1) }) ∧
      (x.hops ≠ 15 →
        (s.lif.field.state ≠ .active →
          s.relay .box x = s.count .field fun c => { c with notActive := min 65535 (c.notActive + 1) }) ∧
        (s.lif.field.state = .active → 32 ≤ s.lif.qf.length →
          s.relay .box x = s.count .field fun c => { c with full := min 65535 (c.full + 1) }) ∧
        (s.lif.field.state = .active → s.lif.qf.length < 32 →
          s.relay .box x = State.count { s with lif := { s.lif with qf := s.lif.qf ++ [w] } } .box
            fun c => { c with relayed := min 65535 (c.relayed + 1) }) ∧
        (s.lif.box.state ≠ .active →
          s.relay .field x = s.count .box fun c => { c with notActive := min 65535 (c.notActive + 1) }) ∧
        (s.lif.box.state = .active → x.kind = kindCount →
          s.relay .field x = (if s.lif.q3.length < 16 then
            State.count { s with lif := { s.lif with q3 := s.lif.q3 ++ [w] } } .field
              fun c => { c with relayed := min 65535 (c.relayed + 1) }
            else s.count .box fun c => { c with full := min 65535 (c.full + 1) })) ∧
        (s.lif.box.state = .active → x.kind ≠ kindCount →
          s.relay .field x = (if s.lif.q1.length < 16 then
            State.count { s with lif := { s.lif with q1 := s.lif.q1 ++ [w] } } .field
              fun c => { c with relayed := min 65535 (c.relayed + 1) }
            else s.count .box fun c => { c with full := min 65535 (c.full + 1) })))) ∧
    ∀ (w : Waiting) (now : Moment) (fast : Bool), (w.send fast now).frame = frameOf (w.telegram now) ∧
      (w.telegram now).dest = w.dest ∧ (w.telegram now).src = w.src ∧
      (∀ k l, w.payload = .relayed k l → (w.telegram now).kind = k ∧ (w.telegram now).body = l) ∧
      (w.origin = .own ∨ w.origin = .axle none → (w.telegram now).hops = 0 ∧ (w.telegram now).age = 0) ∧
      (∀ m, w.origin = .axle (some m) → (w.telegram now).hops = 0 ∧ (w.telegram now).age =
        if 254 < (microsFrom ⟨m, 0⟩ now + 999) / 1000 then 255
        else BitVec.ofNat 8 ((microsFrom ⟨m, 0⟩ now + 999) / 1000)) ∧
      ∀ h a m, w.origin = .relay h a m → (w.telegram now).hops = h + 1 ∧ (w.telegram now).age =
        if a = 255 then 255 else BitVec.ofNat 8 (min 255 (a.toNat + (microsFrom m now + 999) / 1000 + 1))

/-- The layouts keep every bit: what is sent after the start byte reads back as the telegram, and a COUNT body as its fields
(R33, R47, R48). A telegram on the line is the start byte, the header, the body and the CRC-16, high byte first, and its kind
code is 1 to 5 (R47); a COUNT body, a STATUS body of 24 bytes and a REPORT body of 17 carry each field at the offset and with
the code of its table, the 30 fault codes by their code numbers (R48 to R50, R174), and the STATUS that the part builds has
eight demands, four groups and four machines. A REPLY body is the tag, the outcome by its code, and data (R47, R192); that the
bytes of the data are free, 70 at most, is the model's choice (log 5). -/
def Obligations.TelegramsReadBack : Prop :=
  (∀ t : Telegram, headerFits t.dest t.src t.hops (byteOf t.body.length) = true → t.body.length ≤ 72 →
    bodyFits t.kind t.body = true → Telegram.check (frameOf t).tail = some t) ∧
  (∀ c : CountBody, c.inc ≤ 4095 → c.dec ≤ 4095 → countOf (countBytes c) = some c) ∧
  ([CrossingState.opened, .amber, .redLead, .lowerEntry, .lowerExit, .closed, .degraded, .raising, .testActive, .noPlan].map
      CrossingState.number = List.range 10 ∧
    [Owner.auto, .test, .remote, .localPanel].map Owner.number = List.range 4 ∧
    [DemandState.idle, .timing, .predicted, .warning, .standing, .clearing].map DemandState.number = List.range 6 ∧
    [GroupState.unknown, .proven, .degraded, .failed].map GroupState.number = List.range 4 ∧
    [MachineState.upProved, .lowering, .downProved, .raising, .halted, .failed].map MachineState.number = List.range 6 ∧
    [FaultClass.info, .advisory, .urgent, .safety].map FaultClass.number = List.range 4 ∧
    [SourceKind.crossing, .port, .dp, .head, .sect, .approach, .lamp, .group, .machine, .zone, .cabinet, .plan, .faultTable].map
      SourceKind.number = List.range 13 ∧
    [FaultCode.start, .planActivated, .authorityChanged, .lateStart, .shortWarning, .relowered, .warningWithdrawn,
     .standingTrain, .dpRestarted, .lampFailed, .lampShort, .lineErrors, .linePolarity, .headOneChannel, .batteryLow, .mainsOff,
     .dpSilent, .dpHeadFailed, .dpWrongSide, .sectionDisturbed, .timingFailure, .zoneHold, .lampLitWhenDark, .portDown,
     .lineLoop, .listFull, .machineFailed, .islandUnprotected, .lightGroupFailed, .crossingNoPlan].map FaultCode.number =
      List.range' 1 30 ∧
    [kindCount, kindStatus, kindReport, kindCommand, kindReply] = [1, 2, 3, 4, 5] ∧
    [Health.ok, .degraded, .failed].map Health.number = [0, 1, 2] ∧
    [ReplyOutcome.done, .retry, .refusedState, .refusedRange, .refusedSource, .unknown].map ReplyOutcome.number = List.range 6) ∧
  (∀ t : Telegram, ∃ crc : BitVec 16,
    crc = crc16 ([t.dest, t.src, t.kind, t.hops, t.age, BitVec.ofNat 8 t.body.length] ++ t.body) ∧
    frameOf t = [0x3A, t.dest, t.src, t.kind, t.hops, t.age, BitVec.ofNat 8 t.body.length] ++ t.body ++
      [BitVec.ofNat 8 (crc.toNat / 256), BitVec.ofNat 8 crc.toNat]) ∧
  (∀ c : CountBody, Payload.bytes (.count c) = (1, [c.seq, BitVec.ofNat 8 (c.inc / 256), BitVec.ofNat 8 c.inc,
    BitVec.ofNat 8 (c.dec / 256), BitVec.ofNat 8 c.dec, BitVec.ofNat 8 c.health.number, if c.restarted then 1 else 0])) ∧
  (∀ (tag : Byte) (o : ReplyOutcome) (d : ReplyData), ∃ data : List Byte, data.length ≤ 70 ∧
    (d = .none → data = []) ∧ Payload.bytes (.reply tag o d) = (5, tag :: BitVec.ofNat 8 o.number :: data)) ∧
  (∀ s : State, s.statusNow.demands.length = 8 ∧ s.statusNow.groups.length = 4 ∧ s.statusNow.machines.length = 4) ∧
  (∀ (c : StatusContent) (b : List Byte), c.demands.length = 8 → c.groups.length = 4 → c.machines.length = 4 →
    Payload.bytes (.status c) = (kindStatus, b) → b.length = 24 ∧
    b[0]? = some (BitVec.ofNat 8 c.crossing.number) ∧
    b[1]? = some ((if c.protect then 1 else 0) + (if c.held then 2 else 0) + (if c.pending then 4 else 0)) ∧
    b[2]? = some (BitVec.ofNat 8 c.owner.number) ∧ b[3]? = some (BitVec.ofNat 8 c.prior.number) ∧
    (∀ i, i < 8 → b[4 + i]? = (c.demands[i]?).map fun
      | none => 15
      | some d => BitVec.ofNat 8 d.state.number + (if d.forced then 16 else 0)) ∧
    b[12]? = some (BitVec.ofNat 8 c.doubtful) ∧
    (∀ i, i < 4 → b[13 + i]? = (c.groups[i]?).map fun
      | none => 15
      | some g => BitVec.ofNat 8 g.number) ∧
    (∀ i, i < 4 → b[17 + i]? = (c.machines[i]?).map fun
      | none => 15
      | some m => BitVec.ofNat 8 m.number) ∧
    b[21]? = some (BitVec.ofNat 8 (c.planId / 256)) ∧ b[22]? = some (BitVec.ofNat 8 c.planId) ∧
    b[23]? = some (BitVec.ofNat 8 c.version)) ∧
  ∀ (r : ReportContent) (b : List Byte), Payload.bytes (.report r) = (kindReport, b) → b.length = 17 ∧
    b[0]? = some (BitVec.ofNat 8 r.slot) ∧ b[1]? = some r.change ∧ b[2]? = some (BitVec.ofNat 8 r.code.number) ∧
    b[3]? = some (BitVec.ofNat 8 r.source.kind.number) ∧ b[4]? = some (BitVec.ofNat 8 r.source.index) ∧
    b[5]? = some (BitVec.ofNat 8 r.cls.number) ∧
    b[6]? = some ((if r.active then 1 else 0) + (if r.latched then 2 else 0)) ∧
    (∀ i, i < 2 → b[7 + i]? = some (BitVec.ofNat 8 (r.raises / 256 ^ (1 - i)))) ∧
    (∀ i, i < 4 → b[9 + i]? = some (BitVec.ofNat 8 (r.first.toNat / 256 ^ (3 - i)))) ∧
    ∀ i, i < 4 → b[13 + i]? = some (BitVec.ofNat 8 (r.last.toNat / 256 ^ (3 - i)))

/-! ### Detection -/

/-- A COUNT delivered to a LIVE record, next in sequence and plausible, is entered as the new baseline with the silence deadline
moved on, and each section the DP bounds takes its axles in the section's own state (R54, R58 to R61, R75), also while it
carries the restarted flag of a restart already handled (R57); that much of a part with no activation waiting. A duplicate is
ignored (R54); the first telegram is the baseline, which clears DP_SILENT and, with health OK or DEGRADED, DP_HEAD_FAILED (R55,
R65); health FAILED makes the record FAILED, disturbs its sections, raises DP_HEAD_FAILED and clears DP_SILENT of a SILENT or
UNSEEN record (R56, R65); a restart with changed counters disturbs them once, with equal counters it is only entered (R57); an
implausible delta disturbs them (R58); a gap in sequence is counted and makes the axles untimed (R59); a return from FAILED or
SILENT clears its fault and counts, from SILENT untimed (R62, R64). Axles are handed on as one event of the sections first, then
as a passage for each direction that has any, the increasing first (R61); a passage acts on each approach of its direction whose
timing list has the DP, at its position counted from 1, and on no other, and is told (R89, R109). The Plan Store is told after
each of these events, so that a swap which the sections bring due comes before the passages (R20, R74, R109; the model's choice,
log 10); a passage then acts under the new plan for the DP whose record that plan keeps, else it is dropped (the model's choice,
log 51). That sections are disturbed before DP_HEAD_FAILED is raised, that a return's faults are cleared before its axles are
handed on, and that demands report in index order, is the model's choice (log 11). That a restart stays handled until a telegram
with the flag clear is accepted (log 31), and that R65's clears hold of an UNSEEN record, made anew by a swap with a fault still
ACTIVE (log 49), is the model's inference. -/
def Obligations.DeliveredCountsReachTheSections : Prop :=
  ∀ (i dInc dDec : Nat) (d : Delivery) (r : DpRec) (s : State), s.dps[i]? = some r →
    dInc = (d.body.inc + (4096 - r.inc)) % 4096 → dDec = (d.body.dec + (4096 - r.dec)) % 4096 → r.inc < 4096 → r.dec < 4096 →
    (r.baseline = true → d.body.seq = r.seq → s.deliver i d = s) ∧
    (r.state = .live → r.baseline = true → d.body.seq = r.seq + 1 → d.body.health ≠ .failed →
      d.body.restarted = false ∨ r.restart = true → dInc ≤ 512 → dDec ≤ 512 → NoActivation s →
      (s.deliver i d).dps[i]? = some { r with
        seq := d.body.seq, inc := d.body.inc, dec := d.body.dec, health := d.body.health, restart := d.body.restarted,
        port := d.port,
        lastTime := d.arrival, deadline := some (after d.arrival s.silence), missed := min 65535 r.missed,
        deltaInc := if dInc = 0 ∧ dDec = 0 then r.deltaInc else dInc,
        deltaDec := if dInc = 0 ∧ dDec = 0 then r.deltaDec else dDec,
        lastEvent := if dInc = 0 ∧ dDec = 0 then r.lastEvent else d.event } ∧
      ∀ (j : Nat) (e : SectionEntry) (x : SectRec), s.sectTable[j]? = some e → s.sects[j]? = some x →
        (s.deliver i d).sects[j]? = some
          (if dInc = 0 ∧ dDec = 0 then x
           else match enteringOf e i with
            | none => x
            | some .inc => x.take s.clock dInc dDec
            | some .dec => x.take s.clock dDec dInc)) ∧
    (∀ (ev : Option Time) (u v : State), u = (s.countDelta i dInc dDec).swapIfDue →
      v = (if dInc = 0 then u else (u.handPassage s.dpTable i .inc ev).swapIfDue) →
      s.handOn i dInc dDec ev = if dDec = 0 then v else (v.handPassage s.dpTable i .dec ev).swapIfDue) ∧
    (∀ (ev : Option Time) (u v : State), NoActivation s → u = s.countDelta i dInc dDec →
      v = (if dInc = 0 then u else u.passage i .inc ev) →
      s.handOn i dInc dDec ev = if dDec = 0 then v else v.passage i .dec ev) ∧
    (∀ (old : List DpEntry) (dir : CountDir) (ev : Option Time) (keeps : DpEntry → DpEntry → Prop),
      (∀ o e, keeps o e ↔ sameDp o e = true ∧ o.side = e.side ∧ o.track = e.track) →
      (old = s.dpTable → s.handPassage old i dir ev = s.passage i dir ev) ∧
      (old ≠ s.dpTable →
        (∀ (j : Nat) (o e : DpEntry), old[i]? = some o → s.dpTable[j]? = some e → keeps o e →
          (∀ (k : Nat) (y : DpEntry), k < j → s.dpTable[k]? = some y → ¬ keeps o y) →
          s.handPassage old i dir ev = s.passage j dir ev) ∧
        ((∀ o, old[i]? = some o → ∀ e ∈ s.dpTable, ¬ keeps o e) → s.handPassage old i dir ev = s))) ∧
    (∀ (dir : CountDir) (ev : Option Time), (s.store.plan = none → s.passage i dir ev = s.tell) ∧
      ∀ p, s.store.plan = some p → ∃ (new : List DemandRec) (acts : List (List FaultAct)),
        s.passage i dir ev = (State.report { s with demands := new } acts.flatten).tell ∧
        new.length = min p.approaches.length s.demands.length ∧ acts.length = new.length ∧
        ∀ (n : Nat) (a : ApproachEntry) (x : DemandRec), p.approaches[n]? = some a → s.demands[n]? = some x →
          (dir ≠ a.dir ∨ (∀ b ∈ a.points, b.dp ≠ i) → new[n]? = some x ∧ acts[n]? = some []) ∧
          ∀ (j : Nat) (b : TimingPoint) (c : DemandCtx), dir = a.dir → a.points[j]? = some b → b.dp = i →
            (∀ (k : Nat) (o : TimingPoint), k < j → a.points[k]? = some o → o.dp ≠ i) →
            c = ⟨s.clock, p, a, n, sightOf p a s.sects⟩ →
            new[n]? = some (c.passage (j + 1) ev x).1 ∧ acts[n]? = some (c.passage (j + 1) ev x).2) ∧
    ∀ q : DpRec, q = { r with
        baseline := true, seq := d.body.seq, inc := d.body.inc, dec := d.body.dec, health := d.body.health, port := d.port,
        lastTime := d.arrival, deadline := some (d.arrival + BitVec.ofNat 32 s.silence) } →
      (r.baseline = false → d.body.health ≠ .failed → ∀ u : State,
        u = s.setDp i { q with state := .live, restart := d.body.restarted } →
        s.deliver i d =
          (if r.state = .silent ∨ r.state = .unseen then u.clear .dpSilent ⟨.dp, i⟩ else u).clear .dpHeadFailed ⟨.dp, i⟩) ∧
      (r.state = .live → r.baseline = true → d.body.seq = r.seq + 1 → d.body.health ≠ .failed →
        d.body.restarted = false ∨ r.restart = true → dInc ≤ 512 → dDec ≤ 512 →
        (dInc = 0 → dDec = 0 → s.deliver i d =
          s.setDp i { q with restart := d.body.restarted, missed := min 65535 r.missed }) ∧
        (0 < dInc ∨ 0 < dDec → s.deliver i d = (s.setDp i { q with
          restart := d.body.restarted, missed := min 65535 r.missed, deltaInc := dInc, deltaDec := dDec,
          lastEvent := d.event }).handOn i dInc dDec d.event)) ∧
      (d.body.health = .failed → r.baseline = false ∨ d.body.seq ≠ r.seq → ∀ u v : State,
        u = s.setDp i { q with
          state := .failed, restart := if r.baseline then r.restart && d.body.restarted else d.body.restarted } →
        v = (u.disturbDp i .headFailed).raise .dpHeadFailed ⟨.dp, i⟩ (s.dpClass i) →
        s.deliver i d = if r.state = .failed then u
          else if r.state = .silent ∨ r.state = .unseen then v.clear .dpSilent ⟨.dp, i⟩ else v) ∧
      (r.state = .live → r.baseline = true → d.body.seq ≠ r.seq → d.body.health ≠ .failed →
        (d.body.restarted = true → r.restart = false →
          (d.body.inc ≠ r.inc ∨ d.body.dec ≠ r.dec → s.deliver i d =
            ((s.setDp i { q with restart := true }).disturbDp i .restart).momentary .dpRestarted ⟨.dp, i⟩ .info) ∧
          (d.body.inc = r.inc → d.body.dec = r.dec →
            s.deliver i d = s.setDp i { q with restart := true, missed := min 65535 r.missed })) ∧
        (d.body.restarted = false ∨ r.restart = true →
          (512 < dInc ∨ 512 < dDec →
            s.deliver i d = (s.setDp i { q with restart := d.body.restarted }).disturbDp i .implausible) ∧
          (dInc ≤ 512 → dDec ≤ 512 → d.body.seq ≠ r.seq + 1 → ∀ gap : Nat, gap = (d.body.seq - r.seq - 1).toNat →
            (dInc = 0 → dDec = 0 → s.deliver i d = s.setDp i { q with
              restart := d.body.restarted, missed := min 65535 (r.missed + gap) }) ∧
            (0 < dInc ∨ 0 < dDec → s.deliver i d = (s.setDp i { q with
              restart := d.body.restarted, missed := min 65535 (r.missed + gap), deltaInc := dInc, deltaDec := dDec,
              lastEvent := none }).handOn i dInc dDec none)))) ∧
      (r.baseline = true → d.body.seq ≠ r.seq → d.body.health ≠ .failed →
        (r.state = .failed → s.deliver i d =
          State.deliver ((s.setDp i { r with state := .live }).clear .dpHeadFailed ⟨.dp, i⟩) i d) ∧
        (r.state = .silent → s.deliver i d = State.deliver
          (((s.setDp i { r with state := .live }).clear .dpSilent ⟨.dp, i⟩).clear .dpHeadFailed ⟨.dp, i⟩) i
          { d with event := none }))

/-- A silence deadline makes the record SILENT, disturbs every section the DP bounds and raises DP_SILENT, SAFETY where the
DP bounds an ISLAND section and URGENT otherwise; before it, nothing (R63, R65, R78, R174; the last is the model's choice,
log 2). A disturbance and a delta of a DP are one event of the Section Table: a section that enters DISTURBED raises
SECTION_DISTURBED, SAFETY for an island and URGENT otherwise; one that becomes CLEAR from DISTURBED or RESTORING clears it;
an island that goes from CLEAR to OCCUPIED while the crossing is neither CLOSED nor DEGRADED raises ISLAND_UNPROTECTED for
the moment (R79, R85), then the demands and the Sequence Controller are told (R74). That the sections report before the
demands are told and before DP_SILENT is raised, and in index order, is the model's choice (log 11). -/
def Obligations.DpSilenceDisturbsItsSections : Prop :=
  (∀ (i : Nat) (r : DpRec) (s : State), s.dps[i]? = some r →
    (r.silenceDue s.clock = false → exec (.dpSilenceDeadline i) s = .next s.settle) ∧
    (∀ cls : FaultClass, (cls = .safety ∧ ∃ e ∈ s.sectTable, e.kind = .island ∧ ∃ b ∈ e.bounds, b.dp = i) ∨
        (cls = .urgent ∧ ∀ e ∈ s.sectTable, e.kind = .island → ∀ b ∈ e.bounds, b.dp ≠ i) →
      s.dpClass i = cls ∧
      (r.state ≠ .silent → due r.deadline s.clock = true → exec (.dpSilenceDeadline i) s = .next (State.settle
        (((s.setDp i { r with state := .silent, deadline := none }).disturbDp i .silent).raise .dpSilent ⟨.dp, i⟩ cls)))) ∧
    (r.state ≠ .silent → due r.deadline s.clock = true → NoActivation s → Reaches (.dpSilenceDeadline i) s fun t =>
      DetectFrame s t ∧ t.heads = s.heads ∧ t.us = s.us ∧
      t.dps[i]? = some { r with state := .silent, deadline := none } ∧ (∀ j, j ≠ i → t.dps[j]? = s.dps[j]?) ∧
      ∀ (j : Nat) (e : SectionEntry) (x : SectRec), s.sectTable[j]? = some e → s.sects[j]? = some x → t.sects[j]? = some
        (if boundedBy i e then
          { x with state := .disturbed, count := 0, balance := 0, entered := false, left := false, cause := .silent,
                   disturbedAt := s.clock, inTotal := 0, outTotal := 0 }
         else x))) ∧
  (∀ (i dInc dDec : Nat) (cause : SectCause) (s : State) (unproved : Bool) (event : List SectRec → State),
    (unproved = false ↔ s.crossing.state = .closed ∨ s.crossing.state = .degraded) →
    (∀ new, event new = (State.demandsSeeSections
      (State.report { s with sects := new } (sectEventActs unproved s.sectTable s.sects new)) s.sects).tell) →
    ∃ a b : List SectRec, s.disturbDp i cause = event a ∧ s.countDelta i dInc dDec = event b ∧
      ∀ (j : Nat) (e : SectionEntry) (x : SectRec), s.sectTable[j]? = some e → s.sects[j]? = some x →
        a[j]? = some (if boundedBy i e then
          { x with state := .disturbed, count := 0, balance := 0, entered := false, left := false, cause := cause,
                   disturbedAt := s.clock, inTotal := 0, outTotal := 0 } else x) ∧
        b[j]? = some (match enteringOf e i with
          | none => x
          | some .inc => x.take s.clock dInc dDec
          | some .dec => x.take s.clock dDec dInc)) ∧
  (∀ (s : State) (code : FaultCode) (src : FaultSource) (cls : FaultClass) (l : List FaultAct), s.report [] = s ∧
    s.report (.raise code src cls :: l) = (s.raise code src cls).report l ∧
    s.report (.moment code src cls :: l) = (s.momentary code src cls).report l ∧
    s.report (.clear code src :: l) = (s.clear code src).report l) ∧
  ∀ (unproved : Bool) (table : List SectionEntry) (old new : List SectRec) (j : Nat) (e : SectionEntry) (x y : SectRec)
    (acts : List FaultAct), acts = sectEventActs unproved table old new → table[j]? = some e → old[j]? = some x →
    new[j]? = some y → ∀ cls : FaultClass,
    (.raise .sectionDisturbed ⟨.sect, j⟩ cls ∈ acts ↔ x.state ≠ .disturbed ∧ y.state = .disturbed ∧
      cls = if e.kind = .island then .safety else .urgent) ∧
    (.clear .sectionDisturbed ⟨.sect, j⟩ ∈ acts ↔ (x.state = .disturbed ∨ x.state = .restoring) ∧ y.state = .clear) ∧
    (.moment .islandUnprotected ⟨.sect, j⟩ cls ∈ acts ↔ e.kind = .island ∧ x.state = .clear ∧ y.state = .occupied ∧
      unproved = true ∧ cls = .safety)

/-- An edge of a head channel: to active, the pulse begins, timed by the head Pmax then in force; to inactive on a head that is
not named or is FAILED, the level alone is read; a noise pulse leaves the channel's last pulse, and makes a pulse that waited
for it a one-channel event; a valid pulse is the last pulse, and with a partner waiting that it overlaps it is an axle in the
direction of the channel that began first, or a one-channel event where both began together, under an active other channel it
waits, and with neither it is a one-channel event, as is a second valid pulse of a channel whose first still waits; a longer
pulse is a stuck channel (R66 to R69, R21). A one-channel event raises HEAD_ONE_CHANNEL and enters its time, and the fourth
within 60000 ms fails the head (R69, R70). What changed is carried by one COUNT, at the last event of the head that waits at the
clock value, one behind a START not among them (R72). The model's choice are: that a level already held brings nothing (log 27);
what the second pulse does (log 15); that a pulse is judged by the Pmax in force at its start and the Pmin in force at its end
(log 16, with R21), and that a waiting pulse which overlaps nothing under way, left from before its head was unnamed, pairs with
nothing and gives way to the next (log 16); that a pulse longer than that Pmax fails the head at its ending edge where it has
not been found stuck before (log 48); and the queue of events that fall together (log 37). -/
def Obligations.HeadChannelEdgesAreTimedAndPaired : Prop :=
  ∀ (h : Fin 8) (c : Channel) (us : Nat) (s : State),
    (∀ b, (s.heads[h].channel c).level = b → exec (.headChannelEdge h c b us) s = .next (s.carry h).settle) ∧
    (s.heads[h].owed = false ∨ s.headWaits h = true → s.carry h = s) ∧
    (s.heads[h].owed = true → s.headWaits h = false → s.carry h = s.emit h) ∧
    (s.headWaits h = true ↔ ∃ (l r : List Instr) (e : Instr), s.pending = l ++ e :: r ∧ .start ∉ l ∧
      ((∃ k b m, e = .headChannelEdge h k b m) ∨ (∃ k, e = .headStuck h k) ∨ e = .oneChannelExpiry h ∨
        e = .restartedFlagClears)) ∧
    (∀ (kept times : List Time) (r q : HeadRec), kept = s.heads[h].oneChannel.filter (fun t => later (after t 60000) s.clock) →
      kept.length ≤ 4 → times = (if kept.length = 4 then kept.drop 1 else kept) ++ [s.clock] →
      r = { s.heads[h] with oneChannel := times } →
      q = (if times.length = 4 ∧ (∃ t, times.head? = some t ∧ later t (s.clock - 60000) = true) then
        { r with failed := true, cause := .oneChannel, a := { r.a with unpaired := none }, b := { r.b with unpaired := none } }
        else r) →
      s.oneChannel h = (s.momentary .headOneChannel ⟨.head, h.val⟩ .advisory).onHead h fun _ =>
        if q.healthAt s.clock = q.sentHealth then q else { q with owed := true }) ∧
    ((s.heads[h].channel c).level = false → ∀ u : State,
      u = State.onHead { s with us := max s.us us } h (HeadRec.onChannel c fun x =>
        { x with level := true, since := some ⟨s.clock, max s.us us⟩, limit := s.pmaxMicros }) →
      exec (.headChannelEdge h c true us) s = .next (u.carry h).settle) ∧
    ((s.heads[h].channel c).level = true → ∀ u : State,
      u = State.onHead { s with us := max s.us us } h (HeadRec.onChannel c fun x => { x with level := false, since := none }) →
      (s.named h = false ∨ s.heads[h].failed = true → exec (.headChannelEdge h c false us) s = .next (u.carry h).settle) ∧
      ∀ t0, s.named h = true → s.heads[h].failed = false → (s.heads[h].channel c).since = some t0 →
        (microsFrom t0 ⟨s.clock, max s.us us⟩ < s.pminMicros →
          (∀ w, (s.heads[h].channel (otherChannel c)).unpaired = some w → momentBefore t0 w.last = false) →
          exec (.headChannelEdge h c false us) s = .next (u.carry h).settle) ∧
        (∀ w, (s.heads[h].channel (otherChannel c)).unpaired = some w → momentBefore t0 w.last = true →
          (microsFrom t0 ⟨s.clock, max s.us us⟩ < s.pminMicros → exec (.headChannelEdge h c false us) s =
            .next (State.settle (State.carry (State.oneChannel (u.onHead h (HeadRec.onChannel (otherChannel c) fun x =>
              { x with unpaired := none })) h) h))) ∧
          (s.pminMicros ≤ microsFrom t0 ⟨s.clock, max s.us us⟩ →
            microsFrom t0 ⟨s.clock, max s.us us⟩ ≤ (s.heads[h].channel c).limit → t0 = w.first →
            exec (.headChannelEdge h c false us) s = .next (State.settle (State.carry (State.oneChannel
              ((u.onHead h (HeadRec.onChannel c fun x => { x with last := some ⟨t0, ⟨s.clock, max s.us us⟩⟩ })).onHead h
                (HeadRec.onChannel (otherChannel c) fun x => { x with unpaired := none })) h) h)))) ∧
        (s.pminMicros ≤ microsFrom t0 ⟨s.clock, max s.us us⟩ →
          microsFrom t0 ⟨s.clock, max s.us us⟩ ≤ (s.heads[h].channel c).limit →
          (∀ w, (s.heads[h].channel (otherChannel c)).unpaired = some w → momentBefore t0 w.last = false) →
          (∃ t1, (s.heads[h].channel (otherChannel c)).since = some t1 ∧ momentBefore t1 ⟨s.clock, max s.us us⟩ = true ∧
            ∀ w, (s.heads[h].channel c).unpaired = some w → momentBefore t1 w.last = false) →
          exec (.headChannelEdge h c false us) s = .next (State.settle (State.carry (u.onHead h (HeadRec.onChannel c fun x =>
            { x with last := some ⟨t0, ⟨s.clock, max s.us us⟩⟩, unpaired := some ⟨t0, ⟨s.clock, max s.us us⟩⟩ })) h))) ∧
        (s.pminMicros ≤ microsFrom t0 ⟨s.clock, max s.us us⟩ →
          microsFrom t0 ⟨s.clock, max s.us us⟩ ≤ (s.heads[h].channel c).limit →
          (∀ w, (s.heads[h].channel (otherChannel c)).unpaired = some w → momentBefore t0 w.last = false) →
          (∀ t1, (s.heads[h].channel (otherChannel c)).since = some t1 → momentBefore t1 ⟨s.clock, max s.us us⟩ = false ∨
            ∃ w, (s.heads[h].channel c).unpaired = some w ∧ momentBefore t1 w.last = true) →
          exec (.headChannelEdge h c false us) s = .next (State.settle (State.carry (State.oneChannel (u.onHead h
            (HeadRec.onChannel c fun x => { x with last := some ⟨t0, ⟨s.clock, max s.us us⟩⟩ })) h) h)))) ∧
    ∀ t0, (s.heads[h].channel c).level = true → s.named h = true → s.heads[h].failed = false →
      (s.heads[h].channel c).since = some t0 → s.pminMicros ≤ microsFrom t0 ⟨s.clock, max s.us us⟩ → NoActivation s →
      ((s.heads[h].channel c).limit < microsFrom t0 ⟨s.clock, max s.us us⟩ →
        Reaches (.headChannelEdge h c false us) s fun t =>
          DetectFrame s t ∧ (∀ k, k ≠ h → t.heads[k] = s.heads[k]) ∧ t.heads[h].failed = true ∧ t.heads[h].cause = .stuck ∧
          t.heads[h].inc = s.heads[h].inc ∧ t.heads[h].dec = s.heads[h].dec ∧
          (t.heads[h].channel c).last = (s.heads[h].channel c).last) ∧
      (microsFrom t0 ⟨s.clock, max s.us us⟩ ≤ (s.heads[h].channel c).limit →
        (∀ w aFirst, (s.heads[h].channel (otherChannel c)).unpaired = some w → momentBefore t0 w.last = true → t0 ≠ w.first →
          aFirst = (match c with
            | .a => momentBefore t0 w.first
            | .b => !momentBefore t0 w.first) →
          Reaches (.headChannelEdge h c false us) s fun t =>
            DetectFrame s t ∧ (∀ k, k ≠ h → t.heads[k] = s.heads[k]) ∧
            t.heads[h].inc = (if aFirst then (s.heads[h].inc + 1) % 4096 else s.heads[h].inc) ∧
            t.heads[h].dec = (if aFirst then s.heads[h].dec else (s.heads[h].dec + 1) % 4096) ∧
            (t.heads[h].channel c).last = some ⟨t0, ⟨s.clock, max s.us us⟩⟩ ∧
            (t.heads[h].channel (otherChannel c)).unpaired = none ∧
            (s.headWaits h = false → t.heads[h].seq = s.heads[h].seq + 1 ∧ t.heads[h].earliest = none ∧
              t.heads[h].lastSent = s.clock ∧ t.heads[h].owed = false) ∧
            (s.headWaits h = true → t.heads[h].seq = s.heads[h].seq ∧ t.heads[h].owed = true ∧
              t.heads[h].earliest = some (s.heads[h].earliest.getD s.clock))) ∧
        ((∀ w, (s.heads[h].channel (otherChannel c)).unpaired = some w → momentBefore t0 w.last = false) →
          (s.heads[h].channel (otherChannel c)).since = none →
          Reaches (.headChannelEdge h c false us) s fun t =>
            DetectFrame s t ∧ (∀ k, k ≠ h → t.heads[k] = s.heads[k]) ∧
            t.heads[h].oneChannel.getLast? = some s.clock ∧ t.heads[h].inc = s.heads[h].inc ∧
            t.heads[h].dec = s.heads[h].dec ∧ (t.heads[h].channel c).last = some ⟨t0, ⟨s.clock, max s.us us⟩⟩))

/-- A stuck channel fails the head, the end of a one-channel list makes it OK again, the restarted flags clear together, and a
heartbeat is emitted, each with its COUNT at the last event of the head that waits at the clock value; a channel is found stuck
when its active time comes to its Pmax, and not where the edge that ends a pulse no longer than Pmax waits at this clock value
(R66, R67); before its time none of them does anything of itself, but that the event of the one-channel list takes from it the
times 60000 ms old, as R69 does (R66, R67, R69, R70, R72). That an event before its time does nothing, that one COUNT follows at
the last waiting event, and that a channel whose active time passes Pmax inside a millisecond is found stuck at the next clock
value, are the model's choice (logs 2, 37 and 48); that a channel keeps the Pmax it began under is R21. -/
def Obligations.HeadTimeEventsEmitTheirCounts : Prop :=
  ∀ (h : Fin 8) (c : Channel) (s : State),
    (s.stuckDue h c = false → exec (.headStuck h c) s = .next (s.carry h).settle) ∧
    (∀ (t0 : Moment) (l r : List Instr) (us : Nat), (s.heads[h].channel c).since = some t0 →
      s.pending = l ++ .headChannelEdge h c false us :: r → .start ∉ l →
      microsFrom t0 ⟨s.clock, max s.us us⟩ ≤ (s.heads[h].channel c).limit → s.stuckDue h c = false) ∧
    (s.heartbeatDue h = false → exec (.headHeartbeat h) s = .next s.settle) ∧
    (s.restartedDue = false → exec .restartedFlagClears s = .next (State.settle ((List.finRange 8).foldl State.carry s))) ∧
    (s.named h = false ∨ s.heads[h].sentHealth ≠ .degraded ∨ s.heads[h].healthAt s.clock ≠ .ok →
      exec (.oneChannelExpiry h) s = .next (State.settle (State.carry (s.onHead h fun x =>
        { x with oneChannel := x.oneChannel.filter fun t => later (after t 60000) s.clock }) h))) ∧
    (s.named h = true → s.heads[h].owed = true → s.heartbeatDue h = false) ∧
    (NoActivation s →
      (∀ t0, s.named h = true → s.heads[h].failed = false → (s.heads[h].channel c).since = some t0 →
        (s.heads[h].channel c).limit ≤ microsFrom t0 ⟨s.clock, s.us⟩ →
        (∀ (l r : List Instr) (us : Nat), s.pending = l ++ .headChannelEdge h c false us :: r → .start ∉ l →
          (s.heads[h].channel c).limit < microsFrom t0 ⟨s.clock, max s.us us⟩) → Reaches (.headStuck h c) s fun t =>
          DetectFrame s t ∧ (∀ k, k ≠ h → t.heads[k] = s.heads[k]) ∧ t.heads[h].failed = true ∧
          t.heads[h].cause = .stuck ∧ t.heads[h].inc = s.heads[h].inc ∧ t.heads[h].dec = s.heads[h].dec ∧
          t.heads[h].a.unpaired = none ∧ t.heads[h].b.unpaired = none ∧
          (s.headWaits h = false → t.heads[h].sentHealth = .failed) ∧
          (s.headWaits h = true → t.heads[h].seq = s.heads[h].seq ∧ (s.heads[h].sentHealth ≠ .failed → t.heads[h].owed = true))) ∧
      (s.named h = true → s.heads[h].failed = false → s.heads[h].sentHealth = .degraded →
        (∀ x ∈ s.heads[h].oneChannel, reached (after x 60000) s.clock = true) →
        Reaches (.oneChannelExpiry h) s fun t =>
          DetectFrame s t ∧ (∀ k, k ≠ h → t.heads[k] = s.heads[k]) ∧
          (s.headWaits h = false → t.heads[h] =
            { s.heads[h] with oneChannel := [], seq := s.heads[h].seq + 1, earliest := none, lastSent := s.clock,
                              sentHealth := .ok, owed := false }) ∧
          (s.headWaits h = true → t.heads[h] = { s.heads[h] with oneChannel := [], owed := true })) ∧
      (reached 5000 s.clock = true → (∃ k : Fin 8, s.heads[k].restarted = true) →
        Reaches .restartedFlagClears s fun t =>
          DetectFrame s t ∧ ∀ k : Fin 8, t.heads[k].restarted = false ∧
            t.heads[k].seq = (if s.named k = true ∧ s.headWaits k = false then s.heads[k].seq + 1 else s.heads[k].seq) ∧
            (s.named k = true → s.headWaits k = true → t.heads[k].owed = true)) ∧
      (s.named h = true → s.heads[h].owed = false → reached (after s.heads[h].lastSent 500) s.clock = true →
        Reaches (.headHeartbeat h) s fun t =>
          DetectFrame s t ∧ (∀ k, k ≠ h → t.heads[k] = s.heads[k]) ∧
          t.heads[h] = { s.heads[h] with seq := s.heads[h].seq + 1, earliest := none, lastSent := s.clock,
                                         sentHealth := s.heads[h].healthAt s.clock }))

/-- RESET EQUIPMENT of a head: refused unless the plan names it, refused unless it is FAILED with both channels inactive,
else the head is OK again with its counters as they were, and its COUNT has gone out (R71, R72; that it waits for no further
event of the head is the model's choice, log 37). -/
def Obligations.ResetHeadReturnsItToOk : Prop :=
  ∀ (tag n : Byte) (s : State),
    (7 < n.toNat → exec (.resetEquipmentHead tag n) s = .next (s.hear.reply 0 tag .refusedRange .none).settle) ∧
    ∀ h : Fin 8, n.toNat = h.val →
      (s.named h = false → exec (.resetEquipmentHead tag n) s = .next (s.hear.reply 0 tag .refusedRange .none).settle) ∧
      (s.named h = true → s.heads[h].failed = false ∨ s.heads[h].a.level = true ∨ s.heads[h].b.level = true →
        exec (.resetEquipmentHead tag n) s = .next (s.hear.reply 0 tag .refusedState .none).settle) ∧
      (s.named h = true → s.heads[h].failed = true → s.heads[h].a.level = false → s.heads[h].b.level = false →
        NoActivation s → Reaches (.resetEquipmentHead tag n) s fun t =>
          DetectFrame s.hear t ∧ (∀ k, k ≠ h → t.heads[k] = s.heads[k]) ∧ t.heads[h].failed = false ∧
          t.heads[h].cause = .none ∧ t.heads[h].oneChannel = [] ∧ t.heads[h].inc = s.heads[h].inc ∧
          t.heads[h].dec = s.heads[h].dec ∧ t.heads[h].sentHealth = .ok ∧ t.heads[h].owed = false)

/-! ### Sections -/

/-- A count in CLEAR or OCCUPIED, the totals in DISTURBED and a delta in RESTORING, each with the whole record it leaves, by
R76, R78, R80 and R83. That the marks entered seen and left seen keep what the sweep saw when it balances is the model's
inference (log 36). -/
def Obligations.SectionDeltasFollowTheTables : Prop :=
  ∀ (now : Time) (axIn axOut : Nat) (r : SectRec),
    (r.state = .clear ∨ r.state = .occupied →
      (r.count + axIn < axOut → r.take now axIn axOut = { r with
        state := .disturbed, count := 0, balance := 0, entered := false, left := false, cause := .negative,
        disturbedAt := now, inTotal := axIn, outTotal := axOut }) ∧
      (axOut + 999 < r.count + axIn → r.take now axIn axOut = { r with
        state := .disturbed, count := 0, balance := 0, entered := false, left := false, cause := .overflow,
        disturbedAt := now, inTotal := axIn, outTotal := axOut }) ∧
      (r.count + axIn = axOut → r.take now axIn axOut = { r with state := .clear, count := 0 }) ∧
      ∀ n, r.count + axIn = axOut + n → 1 ≤ n → n ≤ 999 →
        r.take now axIn axOut = { r with state := .occupied, count := n }) ∧
    (r.state = .restoring →
      (r.balance + axIn < axOut → r.take now axIn axOut = { r with
        state := .disturbed, count := 0, balance := 0, entered := false, left := false, cause := .negative,
        disturbedAt := now, inTotal := axIn, outTotal := axOut }) ∧
      (axOut + 999 < r.balance + axIn → r.take now axIn axOut = { r with
        state := .disturbed, count := 0, balance := 0, entered := false, left := false, cause := .overflow,
        disturbedAt := now, inTotal := axIn, outTotal := axOut }) ∧
      ∀ (n : Nat) (x : SectRec), r.balance + axIn = axOut + n → n ≤ 999 →
        x = { r with
          balance := n, entered := r.entered || decide (0 < axIn), left := r.left || decide (0 < axOut),
          inTotal := min 65535 (r.inTotal + axIn), outTotal := min 65535 (r.outTotal + axOut) } →
        (n = 0 → x.entered = true → r.take now axIn axOut = { x with state := .clear, count := 0, restored := .sweep }) ∧
        (1 ≤ n ∨ x.entered = false → r.take now axIn axOut = x)) ∧
    (r.state = .disturbed → r.take now axIn axOut = { r with
      inTotal := min 65535 (r.inTotal + axIn), outTotal := min 65535 (r.outTotal + axOut) })

/-- RESTORE SECTION: refused by the first of its conditions that fails, the sixth of which asks that every other section whose
bounding list shares a DP with this one's is CLEAR (R81); else the section is RESTORING or CLEAR and no other section changes,
the demands and the Sequence Controller are told (R74), and the answer is DONE with the section index and its new state
(R81, R82, R84). SECTION_DISTURBED of the section is cleared by DIRECT, and nothing is reported by SWEEP (R82, R84). -/
def Obligations.RestoreSectionSweepsOrClears : Prop :=
  (∀ (n : Nat) (e : SectionEntry) (table : List SectionEntry) (sects : List SectRec), neighboursClear n e table sects = true ↔
    ∀ (j : Nat) (f : SectionEntry) (x : SectRec), table[j]? = some f → sects[j]? = some x → j ≠ n →
      (∃ b ∈ e.bounds, ∃ c ∈ f.bounds, c.dp = b.dp) → x.state = .clear) ∧
  ∀ (tag n mode : Byte) (s : State),
    (s.sectTable[n.toNat]? = none → exec (.restoreSection tag n mode) s =
      .next (s.hear.reply 0 tag .refusedRange .none).settle) ∧
    ∀ (e : SectionEntry) (r : SectRec), s.sectTable[n.toNat]? = some e → s.sects[n.toNat]? = some r →
      (1 < mode.toNat → exec (.restoreSection tag n mode) s = .next (s.hear.reply 0 tag .refusedRange .none).settle) ∧
      (mode.toNat ≤ 1 → r.state ≠ .disturbed ∨ (∃ b ∈ e.bounds, ∀ x, s.dps[b.dp]? = some x → x.state ≠ .live) ∨
          (mode = 1 ∧ (e.direct = false ∨ neighboursClear n.toNat e s.sectTable s.sects = false)) →
        exec (.restoreSection tag n mode) s = .next (s.hear.reply 0 tag .refusedState .none).settle) ∧
      (mode.toNat ≤ 1 → r.state = .disturbed → (∀ b ∈ e.bounds, ∃ x, s.dps[b.dp]? = some x ∧ x.state = .live) →
        (mode = 1 → e.direct = true ∧ neighboursClear n.toNat e s.sectTable s.sects = true) → NoActivation s →
        Reaches (.restoreSection tag n mode) s fun t =>
          TrackFrame s.hear t ∧ (∀ j, j ≠ n.toNat → t.sects[j]? = s.sects[j]?) ∧
          t.sects[n.toNat]? = some { r with
            state := if mode = 0 then .restoring else .clear, count := 0, balance := 0, inTotal := 0, outTotal := 0,
            entered := false, left := false, restored := if mode = 0 then r.restored else .direct }) ∧
      ∀ (u v : State) (st : SectState), mode.toNat ≤ 1 → r.state = .disturbed →
        (∀ b ∈ e.bounds, ∃ x, s.dps[b.dp]? = some x ∧ x.state = .live) →
        (mode = 1 → e.direct = true ∧ neighboursClear n.toNat e s.sectTable s.sects = true) →
        st = (if mode = 0 then .restoring else .clear) →
        u = { s.hear with sects := s.sects.set n.toNat { r with
          state := st, count := 0, balance := 0, inTotal := 0, outTotal := 0, entered := false, left := false,
          restored := if mode = 0 then r.restored else .direct } } →
        v = (if mode = 0 then u else u.clear .sectionDisturbed ⟨.sect, n.toNat⟩) →
        exec (.restoreSection tag n mode) s =
          .next (State.settle ((v.demandsSeeSections s.sects).tell.reply 0 tag .done (.sect n.toNat st)))

/-! ### Demands -/

/-- A measured speed and start time: no result below 10 ms or above V_limit, else the speed rounded up and the start time LEAD
before the arrival at no less than V_min (R91, R92). A passage in IDLE starts the timing or fails it (R90); in TIMING and
PREDICTED a leading one measures: PREDICTED, or WARNING when the start time is not later than now, with LATE_START when it is
past, or a timing failure (R94 to R96, R98). At the latest-start DP the start time is afterwards no later than the passage
(R97): a PREDICTED demand warns, one just warned or failed keeps its warning, and LATE_START is raised when the cap lowers a
start time that was computed. In WARNING a leading passage is progress and may be capped (R97, R100), from STANDING beyond the
stop DP a restart (R106), in CLEARING only entered (R107); one that is not leading changes nothing (R89). An entry to WARNING
goes on to CLEARING on an occupied island but for causes FORCED and FOLLOWING, and else takes the standing rule (R99, R105).
That the cap reaches a demand which an IDLE passage made a timing failure, that one passage may raise LATE_START twice (log 17),
and that the cap lowers the start time of a demand gone on to CLEARING (log 46), is the model's reading. So is the last-progress
time, written in WARNING alone (log 18). The order of several reports of one passage is the model's choice (log 50): LATE_START
or TIMING_FAILURE before the SHORT_WARNING of its entry, the cap's LATE_START after what the passage raised and before the
SHORT_WARNING of an entry that the cap makes, STANDING_TRAIN last. -/
def Obligations.PredictionFollowsTheArithmetic : Prop :=
  ∀ (c : DemandCtx) (i j dist : Nat) (ti tj : Time), dist = distanceOf c.entry i - distanceOf c.entry j →
    (since tj ti < 10 → c.predict i ti j tj = none) ∧
    (10 ≤ since tj ti → (c.plan.vLimit : Int) * since tj ti < dist * 1000 → c.predict i ti j tj = none) ∧
    (10 ≤ since tj ti → (dist * 1000 : Int) ≤ c.plan.vLimit * since tj ti → ∃ v : Nat,
      (dist * 1000 : Int) ≤ v * since tj ti ∧ (v = 0 ∨ ((v : Int) - 1) * since tj ti < dist * 1000) ∧
      c.predict i ti j tj = some (v, tj + BitVec.ofNat 32 (distanceOf c.entry j * 1000 / max v c.plan.vMin) -
        BitVec.ofNat 32 c.plan.lead)) ∧
    (∀ (w : WarnCause) (d e : DemandRec),
      e = { d with state := .warning, cause := w, warnBegan := c.now, progress := c.now, standing := none } →
      (w = .prediction ∨ w = .latestStart ∨ w = .timingFailure ∨ w = .restart → c.sight.islandOcc = true → c.enterWarning w d =
        ({ e with state := .clearing, lastWarning := some 0 },
          if 0 < c.plan.leadMin then [.moment .shortWarning ⟨.approach, c.index⟩ .info] else [])) ∧
      (w = .forced ∨ w = .following ∨ c.sight.islandOcc = false → c.enterWarning w d = c.setStanding e)) ∧
    (∀ d : DemandRec,
      (¬ (d.state = .warning ∧ d.forced = false ∧ c.entry.stopPermitted = true ∧ d.point = some c.entry.stopAt) →
        c.setStanding d = ({ d with standing := none }, [])) ∧
      (d.state = .warning → d.forced = false → c.entry.stopPermitted = true → d.point = some c.entry.stopAt →
        ∀ t, t = d.progress + BitVec.ofNat 32 c.plan.tStand →
          (later t c.now = true → c.setStanding d = ({ d with standing := some t }, [])) ∧
          (later t c.now = false → c.setStanding d = ({ d with state := .standing, standing := none },
            [.moment .standingTrain ⟨.approach, c.index⟩ .info])))) ∧
    (∀ d e : DemandRec,
      e = { d with ts := if (∃ t, d.ts = some t ∧ later t c.now = false) then d.ts else some c.now } →
      c.timingFailure d =
        ((c.enterWarning .timingFailure e).1,
          .raise .timingFailure ⟨.approach, c.index⟩ .urgent :: (c.enterWarning .timingFailure e).2)) ∧
    ∀ (k : Nat) (ev : Option Time) (d x : DemandRec), x = { d with point := some k, pointTime := ev } →
      (d.state = .idle → k = 1 → k ≠ c.entry.latest → ∀ t, ev = some t → c.passage k ev d =
        ({ x with state := .timing, t1 := ev, speed := none, ts := none }, [])) ∧
      (d.state = .idle → k ≠ 1 ∨ ev = none → k ≠ c.entry.latest ∨ ev = none → c.passage k ev d = c.timingFailure x) ∧
      (∀ (t : Time) (z : DemandRec × List FaultAct), k = c.entry.latest → ev = some t → z = c.timingFailure x →
        (d.state = .idle ∧ k ≠ 1) ∨ ((d.state = .timing ∨ d.state = .predicted) ∧
          ((∃ n, d.point = some n ∧ n < k) ∨ d.point = none) ∧
          ∀ n tn, d.point = some n → d.pointTime = some tn → c.predict n tn k t = none) →
        ((∃ w, z.1.ts = some w ∧ later w t = false) → c.passage k ev d = z) ∧
        ((∀ w, z.1.ts = some w → later w t = true) → c.passage k ev d = ({ z.1 with ts := some t }, z.2))) ∧
      (d.state ≠ .idle → (∃ n, d.point = some n ∧ k ≤ n) → c.passage k ev d = (d, [])) ∧
      ((∃ n, d.point = some n ∧ n < k) ∨ d.point = none →
        (d.state = .timing ∨ d.state = .predicted → k ≠ c.entry.latest ∨ ev = none →
          (∀ n tn t, d.point = some n → d.pointTime = some tn → ev = some t → c.predict n tn k t = none) →
          c.passage k ev d = c.timingFailure x) ∧
        (d.state = .clearing → c.passage k ev d = (x, [])) ∧
        (d.state = .standing → k ≤ c.entry.stopAt → c.passage k ev d = (d, [])) ∧
        (d.state = .standing → c.entry.stopAt < k → ∀ t, t = ev.getD c.now → c.passage k ev d = c.enterWarning .restart
          { x with ts := if (∃ u, d.ts = some u ∧ later u t = false) then d.ts else some t }) ∧
        (d.state = .warning → ∀ y, y = { x with progress := ev.getD c.now } →
          (k ≠ c.entry.latest ∨ ev = none → c.passage k ev d = c.setStanding y) ∧
          ∀ t, k = c.entry.latest → ev = some t →
            ((∃ u, d.ts = some u ∧ later u t = false) → c.passage k ev d = c.setStanding y) ∧
            ((∀ u, d.ts = some u → later u t = true) →
              (d.cause ≠ .prediction → c.passage k ev d = c.setStanding { y with ts := some t }) ∧
              (d.cause = .prediction → c.passage k ev d =
                ((c.setStanding { y with ts := some t, late := true }).1,
                  .moment .lateStart ⟨.approach, c.index⟩ .info :: (c.setStanding { y with ts := some t, late := true }).2))))) ∧
      ∀ (n v : Nat) (tn t ts : Time) (y : DemandRec), d.state = .timing ∨ d.state = .predicted → d.point = some n → n < k →
        d.pointTime = some tn → ev = some t → c.predict n tn k t = some (v, ts) → y = { x with speed := some v, ts := some ts } →
        (later ts c.now = true → k ≠ c.entry.latest → c.passage k ev d = ({ y with state := .predicted }, [])) ∧
        (later ts c.now = false → k ≠ c.entry.latest → ∀ z, z = c.enterWarning .prediction
            { y with late := d.late || later c.now ts } →
          c.passage k ev d = (z.1, if later c.now ts then .moment .lateStart ⟨.approach, c.index⟩ .info :: z.2 else z.2)) ∧
        (later ts c.now = false → k = c.entry.latest → ∀ z : DemandRec × List FaultAct,
          z = c.enterWarning .prediction { y with late := d.late || later c.now ts } → ∀ first : List FaultAct,
          first = (if later c.now ts then [.moment .lateStart ⟨.approach, c.index⟩ .info] else []) →
          (later ts t = false → c.passage k ev d = (z.1, first ++ z.2)) ∧
          (later ts t = true → c.passage k ev d =
            ({ z.1 with ts := some t, late := true }, first ++ z.2 ++ [.moment .lateStart ⟨.approach, c.index⟩ .info]))) ∧
        (later ts c.now = true → k = c.entry.latest → later ts t = false → c.passage k ev d =
          c.enterWarning .latestStart { y with state := .predicted }) ∧
        (later ts c.now = true → k = c.entry.latest → later ts t = true → ∀ z, z = c.enterWarning .latestStart
            { y with state := .predicted, ts := some t, late := true } →
          c.passage k ev d = (z.1, .moment .lateStart ⟨.approach, c.index⟩ .info :: z.2))

/-- The start time of a PREDICTED demand brings its warning, and the standing deadline of a WARNING demand its standing; no
other demand changes (R96, R99, R105). A change of a watched section: doubt makes a demand forced, with a warning unless it
warns already (R102, R104); the end of doubt ends the hold by the table of R103; a WARNING demand whose island goes from CLEAR
to OCCUPIED is measured (R101); CLEARING ends with the island CLEAR, in IDLE or in a following warning (R107); all sections
CLEAR end the others (R106, R108). That doubt is looked for before the island's entry and before the end of CLEARING (log 41),
and that TIMING_FAILURE is cleared before WARNING_WITHDRAWN is raised (log 50), is the model's choice. -/
def Obligations.DemandTimersWarnAndStand : Prop :=
  (∀ (n : Nat) (p : Plan) (a : ApproachEntry) (d : DemandRec) (s : State), s.store.plan = some p →
    p.approaches[n]? = some a → s.demands[n]? = some d → NoActivation s →
    (d.state = .predicted → due d.ts s.clock = true → Reaches (.startTimeTimer n) s fun t =>
      TrackFrame s t ∧ t.sects = s.sects ∧ (∀ m, m ≠ n → m < p.approaches.length → t.demands[m]? = s.demands[m]?) ∧
      ∃ x, t.demands[n]? = some x ∧ x.cause = .prediction ∧ x.warnBegan = s.clock ∧ x.ts = d.ts ∧
        (islandStateOf p s.sects a.track = .occupied → x.state = .clearing ∧ x.lastWarning = some 0) ∧
        (islandStateOf p s.sects a.track ≠ .occupied → a.stopPermitted = false ∨ d.point ≠ some a.stopAt →
          x.state = .warning ∧ x.standing = none)) ∧
    (d.state = .warning → d.forced = false → due d.standing s.clock = true → Reaches (.standingDeadline n) s fun t =>
      TrackFrame s t ∧ t.sects = s.sects ∧ (∀ m, m ≠ n → m < p.approaches.length → t.demands[m]? = s.demands[m]?) ∧
      t.demands[n]? = some { d with state := .standing, standing := none })) ∧
  (∀ (p : Plan) (a : ApproachEntry) (l : List SectRec),
    ((sightOf p a l).doubt = true ↔ ∃ st ∈ watched p a l, st = .disturbed ∨ st = .restoring) ∧
    ((sightOf p a l).allClear = true ↔ ∀ st ∈ watched p a l, st = .clear) ∧
    ((sightOf p a l).islandClear = true ↔ islandStateOf p l a.track = .clear) ∧
    ((sightOf p a l).islandOcc = true ↔ islandStateOf p l a.track = .occupied) ∧
    watched p a l = a.sects.map (stateAt l) ++ [islandStateOf p l a.track]) ∧
  ∀ (c : DemandCtx) (was : Sight) (d i f : DemandRec),
    i = { d with state := .idle, forced := false, t1 := none, point := none, pointTime := none, ts := none, late := false,
                 standing := none } →
    f = { d with ts := if (∃ t, d.ts = some t ∧ later t c.now = false) then d.ts else some c.now } →
    (c.sight.doubt = true →
      (d.forced = true → c.sectionSeen was d = (d, [])) ∧
      (d.forced = false → d.state = .warning → c.sectionSeen was d = ({ d with forced := true, standing := none }, [])) ∧
      (d.forced = false → d.state ≠ .warning → c.sectionSeen was d = ({ f with
        state := .warning, forced := true, cause := .forced, warnBegan := c.now, progress := c.now, standing := none }, []))) ∧
    (c.sight.doubt = false → d.forced = true →
      (c.sight.islandOcc = true →
        c.sectionSeen was d = ({ d with forced := false, state := .clearing, standing := none }, [])) ∧
      (c.sight.islandOcc = false → c.sight.allClear = true →
        c.sectionSeen was d = (i, [.clear .timingFailure ⟨.approach, c.index⟩])) ∧
      (c.sight.islandOcc = false → c.sight.allClear = false →
        c.sectionSeen was d = c.setStanding { d with forced := false, state := .warning })) ∧
    (c.sight.doubt = false → d.forced = false →
      (d.state = .idle → c.sectionSeen was d = (d, [])) ∧
      (d.state = .warning → was.islandClear = true → c.sight.islandOcc = true → ∀ given, given = (c.now - d.warnBegan).toNat →
        c.sectionSeen was d = ({ d with state := .clearing, standing := none, lastWarning := some given },
          if given < c.plan.leadMin then [.moment .shortWarning ⟨.approach, c.index⟩ .info] else [])) ∧
      (d.state = .warning → was.islandClear = false ∨ c.sight.islandOcc = false →
        (c.sight.allClear = true → c.sectionSeen was d = (i, [.clear .timingFailure ⟨.approach, c.index⟩,
          .moment .warningWithdrawn ⟨.approach, c.index⟩ .info])) ∧
        (c.sight.allClear = false → c.sectionSeen was d = (d, []))) ∧
      (d.state = .clearing →
        (c.sight.islandClear = false → c.sectionSeen was d = (d, [])) ∧
        (c.sight.islandClear = true → c.sight.allClear = true →
          c.sectionSeen was d = (i, [.clear .timingFailure ⟨.approach, c.index⟩])) ∧
        (c.sight.islandClear = true → c.sight.allClear = false → c.sectionSeen was d = c.enterWarning .following f)) ∧
      (d.state = .timing ∨ d.state = .predicted ∨ d.state = .standing →
        (c.sight.allClear = true → c.sectionSeen was d = (i, [.clear .timingFailure ⟨.approach, c.index⟩])) ∧
        (c.sight.allClear = false → c.sectionSeen was d = (d, []))))


/-! ### The crossing -/

/-- AMBER: the state timer's deadline takes the crossing to RED_LEAD, its timer set for now plus T_red, amber put out and the
reds flashing from red A; a change of closure causes changes nothing, and before its deadline neither does the timer (R115;
that an event before its time does nothing is the model's choice, log 2). -/
def Obligations.AmberEndsInRedLead : Prop :=
  ∀ s : State, s.crossing.state = .amber →
    s.causesChanged = s ∧ (due s.crossing.stateTimer s.clock = false → exec .stateTimerDeadline s = .next s.settle) ∧
    (due s.crossing.stateTimer s.clock = true → Reaches .stateTimerDeadline s fun t =>
      LineFrame { s with crossing := t.crossing, lights := t.lights } t ∧
      t.crossing = { s.crossing with
        state := .redLead, entered := s.clock, stateTimer := some (s.clock + BitVec.ofNat 32 (s.par 0 Plan.tRed)) } ∧
      t.lights.command = .flash ∧ t.lights.audible = true ∧
      (s.lights.command ≠ .flash → t.lights.phase = .a ∧ t.lights.began = s.clock ∧ ∀ g : Fin 4,
        t.lights.groups[g].amber.driven = false ∧ t.lights.groups[g].redB.driven = false ∧
        t.lights.groups[g].redA.driven = (s.groupPresent g && s.lights.groups[g].redA.enabled)))

/-- RED_LEAD: the state timer's deadline takes the crossing to LOWER_ENTRY, with the lowering start and the exit timer set,
entry machines sent LOWER and exit machines RAISE, reds and audible output going on; a change of closure causes changes
nothing (R116). An event before its time does nothing; that is the model's choice (log 2). -/
def Obligations.RedLeadEndsInLowerEntry : Prop :=
  ∀ s : State, s.crossing.state = .redLead →
    s.causesChanged = s ∧ (due s.crossing.stateTimer s.clock = false → exec .stateTimerDeadline s = .next s.settle) ∧
    (due s.crossing.stateTimer s.clock = true → Reaches .stateTimerDeadline s fun t =>
      LineFrame { s with crossing := t.crossing, lights := t.lights, barrier := t.barrier } t ∧
      t.crossing = { s.crossing with
        state := .lowerEntry, entered := s.clock, stateTimer := none, loweringStart := some s.clock,
        exitTimer := some (s.clock + BitVec.ofNat 32 (s.par 0 Plan.tExit)), exitRun := false,
        lastDir := t.crossing.lastDir } ∧
      t.lights.command = .flash ∧ t.lights.audible = true ∧
      (s.lights.command = .flash → t.lights = { s.lights with audible := true }) ∧ t.barrier.zone = s.barrier.zone ∧
      ∀ (i : Fin 4) (d : Dir), d = (if s.role i = .entry then .lower else .raise) →
        (s.machinePresent i = false → t.barrier.machines[i] = s.barrier.machines[i] ∧
          t.crossing.lastDir[i] = s.crossing.lastDir[i]) ∧
        (s.machinePresent i = true → t.barrier.machines[i] =
            (if s.crossing.lastDir[i] = some d then s.barrier.machines[i] else s.barrier.machines[i].command s.clock d) ∧
          t.crossing.lastDir[i] = (if s.barrier.machines[i].state = .failed then s.crossing.lastDir[i] else some d)))

/-- LOWER_ENTRY at the exit timer: T_exit has run; with the entry machines done the crossing waits on an occupied zone, or
goes to LOWER_EXIT with LOWER sent to the exit machines (R117, R171). The same at a machine change once T_exit has run
(R117). LOWER_EXIT completes when every present machine is DOWN_PROVED or FAILED: CLOSED, or DEGRADED with a failed machine,
then the auction and the opening check, in an order that is the model's choice (R118, R120, R133; log 12). -/
def Obligations.ExitTimerLeadsToLowerExit : Prop :=
  (∀ s : State, s.crossing.state = .lowerEntry → due s.crossing.exitTimer s.clock = true → s.crossing.exitRun = false →
    (s.entryDone = false → exec .exitTimerDeadline s =
      .next (State.settle { s with crossing := { s.crossing with exitRun := true } })) ∧
    (s.entryDone = true → s.barrier.zone.occupied = true → s.barrier.zone.waiting = false →
      exec .exitTimerDeadline s = .next (State.settle { s with
        crossing := { s.crossing with exitRun := true }
        barrier := { s.barrier with zone := { s.barrier.zone with
          waiting := true, holdStart := some s.clock,
          holdBy := some (s.clock + BitVec.ofNat 32 (s.par 0 Plan.tZone)) } } })) ∧
    (s.entryDone = true → s.barrier.zone.occupied = false → ∃ u : State,
      exec .exitTimerDeadline s = .next u.tryComplete.settle ∧
      u = { s with crossing := u.crossing, lights := u.lights, barrier := u.barrier } ∧
      u.crossing.state = .lowerExit ∧ u.crossing.entered = s.clock ∧ u.crossing.exitTimer = none ∧
      u.crossing.loweringStart = s.crossing.loweringStart ∧ u.lights.audible = false ∧ u.barrier.zone = s.barrier.zone ∧
      ∀ i : Fin 4, u.barrier.machines[i] =
        (if s.machinePresent i = true ∧ s.crossing.lastDir[i] ≠ some .lower
         then s.barrier.machines[i].command s.clock .lower else s.barrier.machines[i]))) ∧
  (∀ s : State, s.crossing.state = .lowerEntry →
    (s.entryDone = true ↔ ∀ i : Fin 4, s.machinePresent i = true → s.role i = .entry →
      s.barrier.machines[i].state = .downProved ∨ s.barrier.machines[i].state = .failed) ∧
    (s.entryDone = false ∨ s.crossing.exitRun = false → s.machinesChanged = s) ∧
    (s.entryDone = true → s.crossing.exitRun = true →
      (s.barrier.zone.occupied = true → s.barrier.zone.waiting = true → s.machinesChanged = s) ∧
      (s.barrier.zone.occupied = true → s.barrier.zone.waiting = false → s.machinesChanged = { s with
        barrier := { s.barrier with zone := { s.barrier.zone with
          waiting := true, holdStart := some s.clock,
          holdBy := some (s.clock + BitVec.ofNat 32 (s.par 0 Plan.tZone)) } } }) ∧
      (s.barrier.zone.occupied = false → ∃ u : State, s.machinesChanged = u.tryComplete ∧
        u = { s with crossing := u.crossing, lights := u.lights, barrier := u.barrier } ∧
        u.crossing.state = .lowerExit ∧ u.crossing.entered = s.clock ∧ u.crossing.exitTimer = none ∧
        u.crossing.loweringStart = s.crossing.loweringStart ∧ u.lights.audible = false ∧ u.barrier.zone = s.barrier.zone ∧
        ∀ i : Fin 4, u.barrier.machines[i] =
          (if s.machinePresent i = true ∧ s.crossing.lastDir[i] ≠ some .lower
           then s.barrier.machines[i].command s.clock .lower else s.barrier.machines[i])))) ∧
  ∀ s : State, s.crossing.state = .lowerExit →
    s.machinesChanged = s.tryComplete ∧
    ((∃ i : Fin 4, s.machinePresent i = true ∧ s.barrier.machines[i].state ≠ .downProved ∧
        s.barrier.machines[i].state ≠ .failed) → s.tryComplete = s) ∧
    ((∀ i : Fin 4, s.machinePresent i = true → s.barrier.machines[i].state = .downProved ∨ s.barrier.machines[i].state = .failed) →
      ∃ u : State, s.tryComplete = u.elect.openingCheck ∧
        u = { s with crossing := u.crossing, lights := u.lights, barrier := u.barrier } ∧
        u.crossing.state = (if (∃ i : Fin 4, s.machinePresent i = true ∧ s.barrier.machines[i].state = .failed)
          then .degraded else .closed) ∧
        u.crossing.entered = s.clock ∧ u.crossing.loweringStart = s.crossing.loweringStart ∧
        u.crossing.remoteOpen = s.crossing.remoteOpen ∧ u.lights.command = .flash ∧ u.lights.audible = false ∧
        ∀ i : Fin 4, u.barrier.machines[i] =
          (if s.machinePresent i = true ∧ s.crossing.lastDir[i] ≠ some .lower
           then s.barrier.machines[i].command s.clock .lower else s.barrier.machines[i]))

/-- CLOSED and DEGRADED: the opening check passes when no closure cause stands, the owner permits and every PREDICTED or TIMING
demand allows the opening limit; then every present machine that is not FAILED is sent RAISE and the remote-open latch goes
(R120 to R122). The demand view shows each demand's state, FORCED and start figure: the start time of a PREDICTED demand,
the margin floor(D_2 × 1000 / v_line) − L of a TIMING one, and none of any other (R93, R109); the margin is stated where it
is no less than 0, as the plan check makes it (R12). A failed machine moves CLOSED to DEGRADED, and all machines down and
none failed moves it back (R119). RAISING goes to OPEN, dark and with the lowering start none, when every present machine is
UP_PROVED or FAILED, and the auction follows (R123, R133); a closure cause takes it to LOWER_ENTRY with RELOWERED (R124). -/
def Obligations.OpeningCheckRaisesTheRoad : Prop :=
  (∀ (p : Plan) (a : ApproachEntry) (d : DemandRec),
    (∀ t, d.state = .predicted → d.ts = some t → figureOf p a d = .at t) ∧
    (∀ (b : TimingPoint) (m : Nat), d.state = .timing → a.points[1]? = some b → m + p.lead = b.dist * 1000 / p.vLine →
      figureOf p a d = .margin m) ∧
    (d.state ≠ .predicted → d.state ≠ .timing → figureOf p a d = .none)) ∧
  (∀ s : State, (s.store.plan = none → s.demandsNow = []) ∧
    ∀ (p : Plan) (i : Nat) (a : ApproachEntry) (d : DemandRec), s.store.plan = some p → p.approaches[i]? = some a →
      s.demands[i]? = some d → s.demandsNow[i]? = some ⟨d.state, d.forced, figureOf p a d⟩) ∧
  (∀ s : State, s.crossing.state = .closed ∨ s.crossing.state = .degraded →
    (s.mayOpen = true ↔ s.causes = [] ∧
      (s.authority.owner = .remote → s.crossing.remoteOpen = true) ∧
      (s.authority.owner = .localPanel → s.pins.panelOpen = true) ∧
      ∀ v ∈ s.crossing.demandView,
        (∀ ts, v.figure = .at ts → (s.par 0 (fun p => p.tMinOpen + p.tRaiseAllow) : Int) ≤ since ts s.clock) ∧
        ∀ m, v.figure = .margin m → s.par 0 (fun p => p.tMinOpen + p.tRaiseAllow) ≤ m) ∧
    (s.mayOpen = false → s.openingCheck = s) ∧
    (s.mayOpen = true → ∃ u : State, s.openingCheck = (if u.allUpOrFailed then u.enterOpen else u) ∧
      u = { s with crossing := u.crossing, lights := u.lights, barrier := u.barrier } ∧
      u.crossing.state = .raising ∧ u.crossing.entered = s.clock ∧ u.crossing.remoteOpen = false ∧
      u.lights.command = .flash ∧
      ∀ i : Fin 4, u.barrier.machines[i] =
        (if s.machinePresent i = true ∧ s.crossing.lastDir[i] ≠ some .raise
         then s.barrier.machines[i].command s.clock .raise else s.barrier.machines[i]))) ∧
  (∀ (s : State) (move : Prop) (c : CrossingState),
    (s.crossing.state = .closed ∧ c = .degraded ∧
        (move ↔ ∃ i : Fin 4, s.machinePresent i = true ∧ s.barrier.machines[i].state = .failed)) ∨
      (s.crossing.state = .degraded ∧ c = .closed ∧
        (move ↔ ∀ i : Fin 4, s.machinePresent i = true → s.barrier.machines[i].state = .downProved)) →
    (¬ move → s.machinesChanged = s) ∧
    (move → ∃ u : State, s.machinesChanged = u.openingCheck ∧
      u = { s with crossing := u.crossing, lights := u.lights, barrier := u.barrier } ∧ u.crossing.state = c ∧
      u.crossing.entered = s.clock ∧ u.crossing.remoteOpen = s.crossing.remoteOpen)) ∧
  ∀ s : State, s.crossing.state = .raising →
    ((∃ i : Fin 4, s.machinePresent i = true ∧ s.barrier.machines[i].state ≠ .upProved ∧ s.barrier.machines[i].state ≠ .failed) →
      s.machinesChanged = s) ∧
    ((∀ i : Fin 4, s.machinePresent i = true → s.barrier.machines[i].state = .upProved ∨ s.barrier.machines[i].state = .failed) →
      ∃ u : State, s.machinesChanged = (if u.elect.causes = [] then u.elect else u.elect.enterAmber) ∧
        u = { s with crossing := u.crossing, lights := u.lights, barrier := u.barrier } ∧ u.crossing.state = .opened ∧
        u.crossing.entered = s.clock ∧ u.crossing.loweringStart = none ∧ u.lights.command = .dark ∧ u.lights.audible = false) ∧
    (s.causes = [] → s.causesChanged = s) ∧
    (s.causes ≠ [] → ∃ u : State, s.causesChanged = u.momentary .relowered ⟨.crossing, 0⟩ .info ∧
      u = { s with crossing := u.crossing, lights := u.lights, barrier := u.barrier } ∧ u.crossing.state = .lowerEntry ∧
      u.crossing.entered = s.clock ∧ u.crossing.loweringStart = some s.clock ∧
      u.crossing.exitTimer = some (s.clock + BitVec.ofNat 32 (s.par 0 Plan.tExit)) ∧ u.crossing.exitRun = false ∧
      u.lights.audible = true ∧ u.barrier.zone = s.barrier.zone ∧
      ∀ (i : Fin 4) (d : Dir), d = (if s.role i = .entry then .lower else .raise) → u.barrier.machines[i] =
        (if s.machinePresent i = true ∧ s.crossing.lastDir[i] ≠ some d
         then s.barrier.machines[i].command s.clock d else s.barrier.machines[i]))

/-! ### Authority -/

/-- The winner of an auction is eligible, and no eligible owner is of higher priority (R131, R133). While the lock is held no
auction is run; else a winner that is not the owner becomes it, with the prior owner and the owner-change time entered, and
the remote latches go with REMOTE (R132 to R134). -/
def Obligations.WinnerIsTheHighestEligibleOwner : Prop :=
  ∀ (s : State) (eligible : Owner → Prop) (priority : Owner → Nat),
    (∀ o, eligible o ↔ (o = .auto ∨
      (o = .localPanel ∧ s.authority.key = true ∧ s.authority.localRelease = true ∧ s.par false Plan.panelFitted = true) ∨
      (o = .remote ∧ s.authority.remoteRequest = true ∧ s.par false Plan.remotePermitted = true) ∨
      (o = .test ∧ s.authority.testRequest = true ∧ s.par false Plan.testPermitted = true))) →
    priority .auto = 0 → priority .test = 1 → priority .remote = 2 → priority .localPanel = 3 →
    eligible s.winner ∧ (∀ o, eligible o → priority o ≤ priority s.winner) ∧
    (s.locked = true ↔ ¬ (s.crossing.state = .opened ∨ s.crossing.state = .closed ∨ s.crossing.state = .degraded)) ∧
    (s.locked = true → s.elect = s) ∧ (s.winner = s.authority.owner → s.elect = s) ∧
    (s.locked = false → s.winner ≠ s.authority.owner → s.elect = State.momentary { s with
      authority := { s.authority with prior := s.authority.owner, owner := s.winner, changed := s.clock }
      crossing := if s.authority.owner = .remote then { s.crossing with remoteClose := false, remoteOpen := false }
        else s.crossing } .authorityChanged ⟨.crossing, 0⟩ .info)

/-- A request, a release or an edge of KEY sets its own bit of the authority record; while the lock is free the owner becomes
the winner of the auction, while it is held the owner stays; one that changes nothing, or is not enabled, changes nothing
(R133 to R138; that a KEY level already held brings nothing is the model's choice, log 27). -/
def Obligations.RequestsAndKeyRunTheAuction : Prop :=
  ∀ (c : Instr) (a : AuthorityRec) (tag : Byte) (s u : State),
    (c = .remoteRequest tag ∧ s.par false Plan.remotePermitted = true ∧ a = { s.authority with remoteRequest := true } ∧ u = s.hear ∨
      c = .remoteRelease tag ∧ a = { s.authority with remoteRequest := false } ∧ u = s.hear ∨
      c = .testRequest tag ∧ s.par false Plan.testPermitted = true ∧ a = { s.authority with testRequest := true } ∧ u = s.hear ∨
      c = .testRelease tag ∧ a = { s.authority with testRequest := false } ∧ u = s.hear ∨
      c = .localRelease tag ∧ s.par false Plan.panelFitted = true ∧ a = { s.authority with localRelease := true } ∧ u = s.hear ∨
      c = .localWithdraw tag ∧ a = { s.authority with localRelease := false } ∧ u = s.hear ∨
      (∃ b, c = .keyEdge b ∧ a = { s.authority with key := b }) ∧ u = s) →
    (a ≠ s.authority → NoActivation s → Reaches c s fun t =>
      ControlFrame u t ∧ t.authority.remoteRequest = a.remoteRequest ∧ t.authority.testRequest = a.testRequest ∧
      t.authority.localRelease = a.localRelease ∧ t.authority.key = a.key ∧
      t.authority.owner =
        (if s.crossing.state = .opened ∨ s.crossing.state = .closed ∨ s.crossing.state = .degraded
         then State.winner { s with authority := a } else s.authority.owner) ∧
      (t.authority.owner ≠ s.authority.owner →
        t.authority.prior = s.authority.owner ∧ t.authority.changed = s.clock)) ∧
    (a = s.authority → (∀ b, c ≠ .keyEdge b) →
      exec c s = .next (s.hear.reply 0 tag .done (.ownerLock s.authority.owner s.locked)).settle) ∧
    (a = s.authority → (∃ b, c = .keyEdge b) → exec c s = .next s.settle) ∧
    (s.par false Plan.remotePermitted = false →
      exec (.remoteRequest tag) s = .next (s.hear.reply 0 tag .refusedState .none).settle) ∧
    (s.par false Plan.testPermitted = false →
      exec (.testRequest tag) s = .next (s.hear.reply 0 tag .refusedState .none).settle) ∧
    (s.par false Plan.panelFitted = false →
      exec (.localRelease tag) s = .next (s.hear.reply 0 tag .refusedState .none).settle)

/-- REMOTE CLOSE and REMOTE OPEN belong to REMOTE, the panel CLOSE and OPEN inputs to LOCAL: under another owner the command is
refused and the input is only read; under its own the latch or the level acts, and a cause in OPEN takes the crossing to
AMBER (R114, R121, R138, R139). -/
def Obligations.OwnersCommandsActUnderTheirOwner : Prop :=
  ∀ (tag : Byte) (s : State),
    (s.authority.owner ≠ .remote →
      exec (.remoteClose tag) s = .next (s.hear.reply 0 tag .refusedState .none).settle ∧
      exec (.remoteOpen tag) s = .next (s.hear.reply 0 tag .refusedState .none).settle) ∧
    (s.crossing.state ≠ .closed → s.crossing.state ≠ .degraded →
      exec (.remoteOpen tag) s = .next (s.hear.reply 0 tag .refusedState .none).settle) ∧
    (s.authority.owner = .remote → NoActivation s → Reaches (.remoteClose tag) s fun t =>
      ControlFrame s.hear t ∧ t.crossing.remoteClose = true ∧ t.crossing.remoteOpen = false ∧
      (s.crossing.state = .opened → t.crossing.state = .amber ∧ t.crossing.entered = s.clock ∧
        t.crossing.stateTimer = some (s.clock + BitVec.ofNat 32 (s.par 0 Plan.tAmber)) ∧ t.lights.command = .amber ∧
        t.lights.audible = true)) ∧
    (s.authority.owner = .remote → s.crossing.state = .closed ∨ s.crossing.state = .degraded → ∀ u : State,
      u = State.openingCheck { s.hear with crossing := { s.crossing with remoteClose := false, remoteOpen := true } } →
      exec (.remoteOpen tag) s = .next (u.reply 0 tag .done (.crossing u.crossing.state)).settle) ∧
    (∀ b, s.authority.owner ≠ .localPanel → s.pins.panelClose ≠ b → exec (.panelCloseEdge b) s =
      .next (State.settle { s with pins := { s.pins with panelClose := b } })) ∧
    (∀ b, s.authority.owner ≠ .localPanel → s.pins.panelOpen ≠ b → exec (.panelOpenEdge b) s =
      .next (State.settle { s with pins := { s.pins with panelOpen := b } })) ∧
    (s.authority.owner = .localPanel → s.crossing.state = .opened → s.pins.panelClose = false →
      Reaches (.panelCloseEdge true) s fun t =>
        ControlFrame { s with pins := { s.pins with panelClose := true } } t ∧ t.crossing.state = .amber ∧
        t.crossing.entered = s.clock ∧
        t.crossing.stateTimer = some (s.clock + BitVec.ofNat 32 (s.par 0 Plan.tAmber)) ∧ t.lights.command = .amber ∧
        t.lights.audible = true) ∧
    (s.authority.owner = .localPanel → s.crossing.state = .closed ∨ s.crossing.state = .degraded →
      (∀ b, s.pins.panelClose ≠ b → exec (.panelCloseEdge b) s =
        .next (State.openingCheck { s with pins := { s.pins with panelClose := b } }).settle) ∧
      ∀ b, s.pins.panelOpen ≠ b → exec (.panelOpenEdge b) s =
        .next (State.openingCheck { s with pins := { s.pins with panelOpen := b } }).settle)

/-- TEST STEP: refused under another owner, refused by the first condition that fails, else TEST_ACTIVE with the step
entered, the lamps lit for a LAMP TEST or the machine sent LOWER for a MACHINE CYCLE; a LAMP TEST ends COMPLETE at its step
end, in OPEN and dark, or in AMBER when a closure cause then stands; a MACHINE CYCLE raises its machine from DOWN_PROVED and
ends COMPLETE at UP_PROVED, FAILED at a failure, and an exit machine of it is raised at once when the zone is occupied; a
closure cause abandons a step for AMBER (R125, R126, R139 to R143). An end of a LAMP TEST before its time does nothing; that
is the model's choice (log 2). -/
def Obligations.TestStepsBeginAndLampTestsEnd : Prop :=
  ∀ (tag step m : Byte) (s : State),
    (s.authority.step ≠ .lampTest ∨ due s.authority.stepEnd s.clock = false → exec .lampTestEnd s = .next s.settle) ∧
    (s.authority.step = .lampTest → due s.authority.stepEnd s.clock = true → NoActivation s →
      Reaches .lampTestEnd s fun t =>
        ControlFrame s t ∧ t.authority.step = .none ∧ t.authority.phase = .none ∧ t.authority.stepEnd = none ∧
        t.authority.outcome = .complete ∧ t.crossing.loweringStart = none ∧ t.crossing.entered = s.clock ∧
        (s.winner = s.authority.owner → s.causes = [] → t.crossing.state = .opened ∧ t.lights.command = .dark) ∧
        (s.winner = s.authority.owner → s.causes ≠ [] → t.crossing.state = .amber ∧ t.lights.command = .amber)) ∧
    (s.authority.owner ≠ .test → exec (.testStep tag step m) s = .next (s.hear.reply 0 tag .refusedState .none).settle) ∧
    (s.authority.owner = .test → 1 < step.toNat ∨ (step = 1 ∧ ∀ i : Fin 4, m.toNat = i.val → s.machinePresent i = false) ∨
        (step = 0 ∧ ∀ g : Fin 4, s.groupPresent g = false) →
      exec (.testStep tag step m) s = .next (s.hear.reply 0 tag .refusedRange .none).settle) ∧
    (s.authority.owner = .test →
      (step = 0 ∧ (∃ g : Fin 4, s.groupPresent g = true)) ∨
        (step = 1 ∧ ∃ i : Fin 4, m.toNat = i.val ∧ s.machinePresent i = true) →
      s.crossing.state ≠ .opened ∨ (∃ d ∈ s.demands, d.state ≠ .idle) ∨
        (step = 1 ∧ ∃ i : Fin 4, m.toNat = i.val ∧ (s.barrier.machines[i].state ≠ .upProved ∨
          (s.role i = .exit ∧ s.barrier.zone.occupied = true))) →
      exec (.testStep tag step m) s = .next (s.hear.reply 0 tag .refusedState .none).settle) ∧
    (∀ i : Fin 4, s.authority.step = .machineCycle i →
      (s.barrier.machines[i].state = .failed ∨ (s.authority.phase = .raising ∧ s.barrier.machines[i].state = .upProved) →
        s.cycleAdvance i = State.enterOpen { s with authority := { s.authority with
          step := .none, phase := .none, stepEnd := none,
          outcome := if s.barrier.machines[i].state = .failed then .failed else .complete } }) ∧
      (s.authority.phase = .lowering → s.barrier.machines[i].state = .downProved → ∀ u : State,
        u = { s with authority := { s.authority with phase := .raising }
                     barrier := { s.barrier with
                       machines := s.barrier.machines.set i (s.barrier.machines[i].command s.clock .raise) }
                     crossing := { s.crossing with lastDir := s.crossing.lastDir.set i (some .raise) } } →
        s.barrier.machines[i].up = false → s.cycleAdvance i = u) ∧
      (s.authority.phase = .lowering → s.role i = .exit → s.barrier.zone.occupied = true →
        s.barrier.machines[i].state = .lowering → s.barrier.machines[i].up = false → ∀ u : State,
        u = { s with authority := { s.authority with phase := .raising }
                     barrier := { s.barrier with
                       machines := s.barrier.machines.set i (s.barrier.machines[i].command s.clock .raise) }
                     crossing := { s.crossing with lastDir := s.crossing.lastDir.set i (some .raise) } } → s.cycleZone = u) ∧
      (s.barrier.machines[i].state = .lowering ∨ s.barrier.machines[i].state = .raising ∨
        s.barrier.machines[i].state = .halted → s.cycleAdvance i = s)) ∧
    (s.crossing.state = .testActive → (s.causes = [] → s.causesChanged = s) ∧
      (s.causes ≠ [] → ∃ u : State, s.causesChanged = u ∧
        u = { s with crossing := u.crossing, authority := u.authority, lights := u.lights, barrier := u.barrier } ∧
        u.authority = { s.authority with
          testRequest := false, outcome := .abandoned, step := .none, phase := .none, stepEnd := none } ∧
        u.crossing.state = .amber ∧ u.crossing.entered = s.clock ∧
        u.crossing.stateTimer = some (s.clock + BitVec.ofNat 32 (s.par 0 Plan.tAmber)) ∧ u.lights.command = .amber ∧
        u.lights.audible = true ∧ ∀ i : Fin 4,
          (s.authority.step = .machineCycle i → s.barrier.machines[i].state = .raising →
            u.barrier.machines[i] = s.barrier.machines[i].command s.clock .lower ∧ u.crossing.lastDir[i] = some .lower) ∧
          (s.authority.step ≠ .machineCycle i ∨ s.barrier.machines[i].state ≠ .raising →
            u.barrier.machines[i] = s.barrier.machines[i] ∧ u.crossing.lastDir[i] = s.crossing.lastDir[i]))) ∧
    (s.authority.owner = .test → s.crossing.state = .opened → (∀ d ∈ s.demands, d.state = .idle) →
      (step = 0 → (∃ g : Fin 4, s.groupPresent g = true) → Reaches (.testStep tag step m) s fun t =>
        LineFrame { s.hear with crossing := t.crossing, authority := t.authority, lights := t.lights } t ∧
        t.crossing = { s.crossing with state := .testActive, entered := s.clock } ∧
        t.authority = { s.authority with step := .lampTest, phase := .flashing, outcome := .none, stepTag := tag,
                                         stepEnd := some (s.clock + BitVec.ofNat 32 (10 * s.flashHalf)) } ∧
        t.lights.command = .amberFlash ∧ t.lights.audible = false) ∧
      ∀ i : Fin 4, step = 1 → m.toNat = i.val → s.machinePresent i = true → s.barrier.machines[i].state = .upProved →
        (s.role i = .exit → s.barrier.zone.occupied = false) → Reaches (.testStep tag step m) s fun t =>
          LineFrame { s.hear with crossing := t.crossing, authority := t.authority, lights := t.lights, barrier := t.barrier } t ∧
          t.crossing = { s.crossing with state := .testActive, entered := s.clock,
                                         lastDir := s.crossing.lastDir.set i (some .lower) } ∧
          t.authority = { s.authority with step := .machineCycle i, phase := .lowering, outcome := .none, stepTag := tag,
                                           stepEnd := none } ∧
          t.lights.command = .flash ∧ t.lights.audible = false ∧
          t.barrier = { s.barrier with
            machines := s.barrier.machines.set i (s.barrier.machines[i].command s.clock .lower) })

/-! ### Lights -/

/-- The end of a half-period changes the phase and begins the next, and each lamp is driven as the light command, the new
phase, its group's presence and its enable have it (R146 to R149). Before its end, nothing happens; that is the model's
choice (log 2). -/
def Obligations.HalfPeriodsAlternateTheReds : Prop :=
  ∀ s : State,
    (reached (after s.lights.began s.lights.length) s.clock = false → exec .halfPeriodEnd s = .next s.settle) ∧
    (reached (after s.lights.began s.lights.length) s.clock = true → ∃ u : Lights,
      exec .halfPeriodEnd s = .next (State.settle { s with lights := u }) ∧
      u.command = s.lights.command ∧ u.audible = s.lights.audible ∧ u.began = s.clock ∧ u.length = s.flashHalf ∧
      u.sampled = false ∧ u.phase = (if s.lights.phase = .a then .b else .a) ∧
      ∀ (g : Fin 4) (flashes steady : Bool),
        flashes = ((s.groupPresent g && (decide (u.command = .flash) || decide (u.command = .amberFlash))) ||
          decide (u.command = .noPlan)) →
        steady = (s.groupPresent g && (decide (u.command = .amber) || decide (u.command = .amberFlash))) →
        u.groups[g].redA = { s.lights.groups[g].redA with
          driven := flashes && decide (u.phase = .a) && s.lights.groups[g].redA.enabled } ∧
        u.groups[g].redB = { s.lights.groups[g].redB with
          driven := flashes && decide (u.phase = .b) && s.lights.groups[g].redB.enabled } ∧
        u.groups[g].amber = { s.lights.groups[g].amber with
          driven := (steady || (decide (u.command = .noPlan) && decide (u.phase = .a))) &&
            s.lights.groups[g].amber.enabled })

/-- The sample point: a driven lamp of a present group is judged and proved by the table of R151, a dark one is looked at for
current; under NO_PLAN, without a plan and in an absent group nothing is read (R149 to R153). What changed is reported:
LAMP_FAILED as a lamp enters and leaves FAILED_OPEN, LAMP_SHORT as it enters and leaves FAILED_SHORT, LAMP_LIT_WHEN_DARK as
its condition becomes true and false, and LIGHT_GROUP_FAILED as a group enters and leaves FAILED, both reds failed (R145,
R151 to R153). The order of the reports of one sample point is the model's choice (log 11). A reading at another moment does
nothing; that is the model's choice (log 2). -/
def Obligations.SamplePointsProveTheLamps : Prop :=
  (∀ (c : Vector Nat 12) (s : State),
    (s.lights.sampleDue s.clock = false → exec (.lampSamplePoint c) s = .next s.settle) ∧
    (s.lights.sampleDue s.clock = true → s.store.plan = none ∨ s.lights.command = .noPlan →
      exec (.lampSamplePoint c) s = .next (State.settle { s with lights := { s.lights with sampled := true } })) ∧
    ∀ p, s.store.plan = some p → s.lights.sampleDue s.clock = true → s.lights.command ≠ .noPlan → NoActivation s →
      Reaches (.lampSamplePoint c) s fun t =>
        LineFrame { s with lights := t.lights } t ∧
        t = State.finish (State.report { s with lights := t.lights } (lightActs s.lights t.lights)) ∧
        t.lights = { s.lights with sampled := true, groups := t.lights.groups } ∧
        ∀ (g : Fin 4) (k : LampKind) (l l' : Lamp) (lim : LampLimits) (ma : Nat),
          l = s.lights.groups[g].lamp k → l' = t.lights.groups[g].lamp k → lim = limitsOf p.groups[g] k →
          ma = currentOf c g k →
          (p.groups[g].present = false → l' = l) ∧
          (p.groups[g].present = true → l.driven = false → l' = { l with dark := some ma, lit := decide (50 < ma) }) ∧
          (p.groups[g].present = true → l.driven = true →
            l'.last = some ma ∧ l'.dark = l.dark ∧ l'.lit = l.lit ∧
            (lim.imin ≤ ma → ma ≤ lim.imax → l'.kind = .good ∧ l'.good = min 255 (l.good + 1) ∧ l'.bad = 0) ∧
            (ma < lim.imin → l'.kind = .low ∧ l'.bad = min 255 (l.bad + 1) ∧ l'.good = 0) ∧
            (lim.imin ≤ ma → lim.imax < ma → l'.kind = .high ∧ l'.bad = min 255 (l.bad + 1) ∧ l'.good = 0) ∧
            l'.state =
              (if l.state = .unknown ∧ 1 ≤ l'.good then .proven
               else if (l.state = .unknown ∨ l.state = .proven) ∧ 2 ≤ l'.bad ∧ l'.kind = .low then .failedOpen
               else if (l.state = .unknown ∨ l.state = .proven ∨ l.state = .failedOpen) ∧ 2 ≤ l'.bad ∧ l'.kind = .high
                 then .failedShort
               else if l.state = .failedOpen ∧ 3 ≤ l'.good then .proven
               else l.state) ∧
            (l'.state = .failedShort → l'.driven = false ∧ l'.enabled = false) ∧
            (l'.state ≠ .failedShort → l'.driven = true ∧ l'.enabled = l.enabled))) ∧
  (∀ g : LightGroup, g.state =
    let failed (l : Lamp) : Bool := decide (l.state = .failedOpen) || decide (l.state = .failedShort)
    if failed g.redA ∧ failed g.redB then .failed
    else if failed g.redA ∨ failed g.redB then .degraded
    else if g.redA.state = .proven ∧ g.redB.state = .proven then .proven else .unknown) ∧
  ∀ (a b : Lights) (g : Fin 4) (k : LampKind) (src : FaultSource) (acts : List FaultAct) (x y : Lamp) (cls : FaultClass),
    acts = lightActs a b → src = ⟨.lamp, 3 * g.val + k.place⟩ → x = a.groups[g].lamp k → y = b.groups[g].lamp k →
    (.raise .lampFailed src cls ∈ acts ↔ x.state ≠ .failedOpen ∧ y.state = .failedOpen ∧ cls = .advisory) ∧
    (.clear .lampFailed src ∈ acts ↔ x.state = .failedOpen ∧ y.state ≠ .failedOpen) ∧
    (.raise .lampShort src cls ∈ acts ↔ x.state ≠ .failedShort ∧ y.state = .failedShort ∧ cls = .advisory) ∧
    (.clear .lampShort src ∈ acts ↔ x.state = .failedShort ∧ y.state ≠ .failedShort) ∧
    (.raise .lampLitWhenDark src cls ∈ acts ↔ x.lit = false ∧ y.lit = true ∧ cls = .urgent) ∧
    (.clear .lampLitWhenDark src ∈ acts ↔ x.lit = true ∧ y.lit = false) ∧
    (.raise .lightGroupFailed ⟨.group, g.val⟩ cls ∈ acts ↔
      a.groups[g].state ≠ .failed ∧ b.groups[g].state = .failed ∧ cls = .safety) ∧
    (.clear .lightGroupFailed ⟨.group, g.val⟩ ∈ acts ↔ a.groups[g].state = .failed ∧ b.groups[g].state ≠ .failed)

/-- RESET EQUIPMENT of a lamp: refused for an absent group, refused unless the lamp is failed, else the lamp UNKNOWN with its
counts at 0 and its drive enabled, no other lamp changed; the change is reported as at a sample point, so that LAMP_FAILED or
LAMP_SHORT is cleared, and LIGHT_GROUP_FAILED when the group leaves FAILED (R145, R154), and the command is answered DONE
with the new state. -/
def Obligations.ResetLampMakesItUnknown : Prop :=
  ∀ (tag n : Byte) (s : State),
    (11 < n.toNat → exec (.resetEquipmentLamp tag n) s = .next (s.hear.reply 0 tag .refusedRange .none).settle) ∧
    ∀ (g : Fin 4) (k : LampKind), n.toNat = 3 * g.val + k.place →
      (s.groupPresent g = false →
        exec (.resetEquipmentLamp tag n) s = .next (s.hear.reply 0 tag .refusedRange .none).settle) ∧
      (s.groupPresent g = true → (s.lights.groups[g].lamp k).state = .unknown ∨ (s.lights.groups[g].lamp k).state = .proven →
        exec (.resetEquipmentLamp tag n) s = .next (s.hear.reply 0 tag .refusedState .none).settle) ∧
      (s.groupPresent g = true →
        (s.lights.groups[g].lamp k).state = .failedOpen ∨ (s.lights.groups[g].lamp k).state = .failedShort →
        NoActivation s → Reaches (.resetEquipmentLamp tag n) s fun t =>
          t = State.finish (State.reply (State.report { s.hear with lights := t.lights } (lightActs s.lights t.lights))
            0 tag .done (.lamp .unknown)) ∧
          LineFrame { s.hear with lights := t.lights } t ∧ t.lights = { s.lights with groups := t.lights.groups } ∧
          (t.lights.groups[g].lamp k) = { s.lights.groups[g].lamp k with
            state := .unknown, good := 0, bad := 0, kind := .none, enabled := true } ∧
          ∀ (g' : Fin 4) (k' : LampKind), (g', k') ≠ (g, k) → t.lights.groups[g'].lamp k' = s.lights.groups[g'].lamp k')

/-! ### Machines and the zone -/

/-- A machine command: carried out by no FAILED machine, a proof at the end it names, nothing in the direction it moves, and
else a start: the drive on, both limits running, unless the detector there proves it at once (R159 to R162). R162 says the
proof at once of a reversal; that any other start on the detector of its target, from HALTED or from the other end, is proved
at once too, with travel time 0, is the model's choice (log 19). -/
def Obligations.MachineCommandsFollowTheTable : Prop :=
  ∀ (now : Time) (d : Dir) (r : MachineRec),
    (r.state = .failed → r.command now d = r) ∧
    (r.state = d.proved → r.command now d = { r with commanded := some d }) ∧
    (r.state = d.moving → r.command now d = r) ∧
    (r.state = .halted ∨ r.state = d.other.proved ∨ r.state = d.other.moving →
      (r.target d = false → r.command now d = { r with
        state := d.moving, commanded := some d, drive := some d, cmdTime := some now,
        leaveMet := !r.target d.other && r.boom,
        leaveBy := if !r.target d.other && r.boom then none else some (now + BitVec.ofNat 32 r.tLeave),
        travelBy := some (now + BitVec.ofNat 32 r.tTravel) }) ∧
      (r.target d = true → r.command now d = { r with
        state := d.proved, commanded := some d, drive := none, cmdTime := some now,
        leaveMet := !r.target d.other && r.boom, leaveBy := none, travelBy := none, lastTravel := some 0 }))

/-- Detector changes: a moving machine is proved at its target and else has met its leave when the end it leaves is inactive
and BOOM is active; one moved off its proved end without a command is driven back or halted, and a halted one follows its
detectors; a lost boom and a conflict fail a present machine; a position that is not supervised is only read (R160, R161,
R163, R164, R168). That a change with a lost boom and a conflict together is BOOM_LOST, that a re-drive with the target
active is proved at once and one without a plan is sent with BOOM inactive too, and that levels already held change nothing,
are the model's choice (logs 20, 19 and 27). -/
def Obligations.DetectorChangesProveOrFail : Prop :=
  ∀ (i : Fin 4) (up down boom : Bool) (s : State) (r : MachineRec), r = s.barrier.machines[i] →
    (r.up = up → r.down = down → r.boom = boom → exec (.machineDetectorChange i up down boom) s = .next s.settle) ∧
    (¬ (r.up = up ∧ r.down = down ∧ r.boom = boom) →
      (s.supervised i = false → exec (.machineDetectorChange i up down boom) s =
        .next (State.settle (s.setMachine i { r with up := up, down := down, boom := boom }))) ∧
      (r.state = .failed → s.supervised i = true → exec (.machineDetectorChange i up down boom) s =
        .next (State.settle (s.machineEvent i { r with up := up, down := down, boom := boom }))) ∧
      (s.machinePresent i = true → r.state ≠ .failed → r.boom = true → boom = false →
        exec (.machineDetectorChange i up down boom) s = .next (State.settle (s.machineEvent i { r with
          up := up, down := down, boom := boom, state := .failed, drive := none, cause := .boomLost,
          failTime := some s.clock, commanded := none, leaveBy := none, travelBy := none, leaveMet := false }))) ∧
      (s.machinePresent i = true → r.state ≠ .failed → (r.boom = true → boom = true) → up = true → down = true →
        ¬ (r.up = true ∧ r.down = true) →
        exec (.machineDetectorChange i up down boom) s = .next (State.settle (s.machineEvent i { r with
          up := up, down := down, boom := boom, state := .failed, drive := none, cause := .detectorConflict,
          failTime := some s.clock, commanded := none, leaveBy := none, travelBy := none, leaveMet := false }))) ∧
      (s.supervised i = true → (r.boom = true → boom = true) → ¬ (up = true ∧ down = true) → ∀ q : MachineRec,
        q = { r with up := up, down := down, boom := boom } →
        (∀ d : Dir, r.state = d.moving → (match d with
            | .raise => up
            | .lower => down) = false →
          exec (.machineDetectorChange i up down boom) s = .next (State.settle (s.machineEvent i
            (if boom = true ∧ (match d with
                | .raise => down
                | .lower => up) = false
             then { q with leaveMet := true, leaveBy := none } else q)))) ∧
        (∀ d : Dir, r.state = d.proved →
          ((match d with
              | .raise => up
              | .lower => down) = true →
            exec (.machineDetectorChange i up down boom) s = .next (State.settle (s.machineEvent i q))) ∧
          ((match d with
              | .raise => up
              | .lower => down) = false →
            (r.commanded = some d → exec (.machineDetectorChange i up down boom) s = .next (State.settle (s.machineEvent i
              (MachineRec.command s.clock d { q with state := .halted })))) ∧
            (r.commanded ≠ some d → exec (.machineDetectorChange i up down boom) s = .next (State.settle (s.machineEvent i
              { q with state := if up then .upProved else if down then .downProved else .halted }))))) ∧
        (r.state = .halted → exec (.machineDetectorChange i up down boom) s = .next (State.settle (s.machineEvent i
          { q with state := if up then .upProved else if down then .downProved else .halted })))) ∧
      ∀ d : Dir, r.state = d.moving → s.supervised i = true → boom = true → up = decide (d = .raise) →
        down = decide (d = .lower) →
        exec (.machineDetectorChange i up down boom) s = .next (State.settle (s.machineEvent i { r with
          up := up, down := down, boom := boom, state := d.proved, drive := none, leaveMet := true, leaveBy := none,
          travelBy := none, lastTravel := r.cmdTime.map fun t => (s.clock - t).toNat })))

/-- A leave deadline reached with leave not met, and a travel deadline reached while moving, fail the machine: both drives
off, cause and time entered, and no direction left (R160, R161, R165). A machine that enters FAILED raises MACHINE_FAILED,
URGENT while the crossing is OPEN and SAFETY in every other state, its last direction sent becomes none (R112, R165, R174),
and a change of state of a present machine is told to the test step in TEST_ACTIVE and to the Sequence Controller otherwise
(R166). A deadline before its time does nothing; that is the model's choice (log 2). -/
def Obligations.MachineDeadlinesFailTheMachine : Prop :=
  (∀ (i : Fin 4) (s : State) (r : MachineRec), r = s.barrier.machines[i] →
    (r.leaveDue s.clock = false → exec (.leaveDeadline i) s = .next s.settle) ∧
    (r.travelDue s.clock = false → exec (.travelDeadline i) s = .next s.settle) ∧
    (r.state = .lowering ∨ r.state = .raising → ∀ q : MachineRec, q = { r with
        state := .failed, drive := none, failTime := some s.clock, commanded := none, leaveBy := none, travelBy := none,
        leaveMet := false } →
      (r.leaveMet = false → due r.leaveBy s.clock = true →
        exec (.leaveDeadline i) s = .next (State.settle (s.machineEvent i { q with cause := .noResponse }))) ∧
      (due r.travelBy s.clock = true →
        exec (.travelDeadline i) s = .next (State.settle (s.machineEvent i { q with cause := .travelTimeout }))) ∧
      (NoActivation s →
        (r.leaveMet = false → due r.leaveBy s.clock = true → Reaches (.leaveDeadline i) s fun t =>
          ControlFrame s t ∧ t.crossing.lastDir[i] = none ∧ t.barrier.machines[i] = { q with cause := .noResponse }) ∧
        (due r.travelBy s.clock = true → Reaches (.travelDeadline i) s fun t =>
          ControlFrame s t ∧ t.crossing.lastDir[i] = none ∧ t.barrier.machines[i] = { q with cause := .travelTimeout })))) ∧
  ∀ (i : Fin 4) (s u : State) (r : MachineRec), u = { s with barrier := { s.barrier with
      machines := s.barrier.machines.set i r } } →
    (r.state = s.barrier.machines[i].state ∨ s.machinePresent i = false → r.state ≠ .failed ∨
      s.barrier.machines[i].state = .failed → s.machineEvent i r = u) ∧
    (r.state ≠ .failed → r.state ≠ s.barrier.machines[i].state → s.machinePresent i = true → s.machineEvent i r =
      (if s.crossing.state = .testActive then u.cycleAdvance i else u.machinesChanged)) ∧
    (r.state = .failed → s.barrier.machines[i].state ≠ .failed → ∀ v : State,
      v = State.raise { u with crossing := { s.crossing with lastDir := s.crossing.lastDir.set i none } }
        .machineFailed ⟨.machine, i.val⟩ (if s.crossing.state = .opened then .urgent else .safety) →
      s.machineEvent i r = (if s.machinePresent i = false then v
        else if s.crossing.state = .testActive then v.cycleAdvance i else v.machinesChanged))

/-- RESET EQUIPMENT of a machine: refused by the first of its conditions that fails, else the machine leaves FAILED; in AMBER
and RED_LEAD it is sent nothing, and its state is that of its detectors (R158, R167). In every state that gives it a
direction (R111) that direction is sent again, RAISE in OPEN and RAISING, LOWER in LOWER_EXIT, CLOSED and DEGRADED, and in
LOWER_ENTRY by its role, MACHINE_FAILED is cleared, the crossing is told and the command is answered DONE with the state of
the detectors (R112, R166, R167). -/
def Obligations.ResetMachineReadsItsDetectors : Prop :=
  ∀ (tag n : Byte) (s : State),
    (3 < n.toNat → exec (.resetEquipmentMachine tag n) s = .next (s.hear.reply 0 tag .refusedRange .none).settle) ∧
    ∀ (i : Fin 4) (r : MachineRec), n.toNat = i.val → r = s.barrier.machines[i] →
      (s.machinePresent i = false →
        exec (.resetEquipmentMachine tag n) s = .next (s.hear.reply 0 tag .refusedRange .none).settle) ∧
      (s.machinePresent i = true → r.state ≠ .failed ∨ r.boom = false ∨ (r.up = true ∧ r.down = true) →
        exec (.resetEquipmentMachine tag n) s = .next (s.hear.reply 0 tag .refusedState .none).settle) ∧
      (s.machinePresent i = true → r.state = .failed → r.boom = true → ¬ (r.up = true ∧ r.down = true) → NoActivation s →
        Reaches (.resetEquipmentMachine tag n) s fun t =>
          ControlFrame s.hear t ∧ t.barrier.machines[i].state ≠ .failed ∧ t.barrier.machines[i].cause = .none ∧
          t.barrier.machines[i].failTime = r.failTime ∧
          (s.crossing.state = .amber ∨ s.crossing.state = .redLead → t.crossing = s.crossing ∧ t.barrier.machines[i] = { r with
            state := if r.up then .upProved else if r.down then .downProved else .halted, drive := none,
            commanded := none, leaveBy := none, travelBy := none, leaveMet := false, cause := .none })) ∧
      ∀ (d : Dir) (q : MachineRec) (u : State),
        s.machinePresent i = true → r.state = .failed → r.boom = true → ¬ (r.up = true ∧ r.down = true) →
        ((s.crossing.state = .opened ∨ s.crossing.state = .raising) ∧ d = .raise) ∨
          ((s.crossing.state = .lowerExit ∨ s.crossing.state = .closed ∨ s.crossing.state = .degraded) ∧ d = .lower) ∨
          (s.crossing.state = .lowerEntry ∧ d = if s.role i = .entry then .lower else .raise) →
        q = { r with
          state := if r.up then .upProved else if r.down then .downProved else .halted, drive := none,
          commanded := none, leaveBy := none, travelBy := none, leaveMet := false, cause := .none } →
        u = { s.hear.clear .machineFailed ⟨.machine, i.val⟩ with
          crossing := { s.crossing with lastDir := s.crossing.lastDir.set i (some d) }
          barrier := { s.barrier with machines := s.barrier.machines.set i (q.command s.clock d) } } →
        exec (.resetEquipmentMachine tag n) s =
          .next (State.settle (u.machinesChanged.reply 0 tag .done (.machine q.state)))

/-- The zone, its hold deadline and the cabinet inputs: each edge is entered; a zone occupied in LOWER_EXIT returns the crossing
to LOWER_ENTRY, with RAISE sent to the present exit machines that are not down or failed; a machine that reaches its end at the
same moment, its change taken after the zone's, is already down and stays down; a zone that clears in LOWER_ENTRY ends the wait
and its ZONE_HOLD, and the crossing goes on to LOWER_EXIT when the entry machines are done and T_exit has run; the hold deadline
raises ZONE_HOLD; a cabinet input raises and clears its fault (R112, R117, R118, R170, R171, R195). A level already held and a
deadline before its time bring nothing; that, and that the same moment is the clock value, at which the change waits in the
queue with no START before it, are the model's choice (logs 27, 2 and 47). -/
def Obligations.ZoneAndCabinetInputsAreTaken : Prop :=
  ∀ (b : Bool) (s : State),
    (s.barrier.zone.occupied = b → exec (.zoneEdge b) s = .next s.settle) ∧
    (s.barrier.zone.occupied ≠ b → NoActivation s → Reaches (.zoneEdge b) s fun t =>
      ControlFrame s t ∧ t.barrier.zone.occupied = b ∧
      (s.crossing.state = .lowerExit → b = true → t.crossing.state = .lowerEntry ∧ t.crossing.entered = s.clock ∧
        t.crossing.loweringStart = s.crossing.loweringStart ∧ t.crossing.exitTimer = s.crossing.exitTimer ∧
        t.lights.audible = true) ∧
      (s.crossing.state = .closed ∨ s.crossing.state = .degraded ∨ s.crossing.state = .opened ∨ s.crossing.state = .raising →
        t.crossing = s.crossing ∧ t.barrier = { s.barrier with zone := { s.barrier.zone with occupied := b } })) ∧
    (s.holdDue = false → exec .holdDeadline s = .next s.settle) ∧
    (s.barrier.zone.waiting = true → due s.barrier.zone.holdBy s.clock = true → exec .holdDeadline s =
      .next (State.settle (State.raise { s with barrier := { s.barrier with
        zone := { s.barrier.zone with holdBy := none, condition := true } } } .zoneHold ⟨.zone, 0⟩ .urgent))) ∧
    (s.pins.battLow ≠ b → ∀ u : State, u = { s with pins := { s.pins with battLow := b } } → exec (.battLowEdge b) s =
      .next (State.settle (if b then u.raise .batteryLow ⟨.cabinet, 0⟩ .advisory else u.clear .batteryLow ⟨.cabinet, 0⟩))) ∧
    (s.pins.mainsOff ≠ b → ∀ u : State, u = { s with pins := { s.pins with mainsOff := b } } → exec (.mainsOffEdge b) s =
      .next (State.settle (if b then u.raise .mainsOff ⟨.cabinet, 0⟩ .advisory else u.clear .mainsOff ⟨.cabinet, 0⟩))) ∧
    (s.crossing.state = .lowerEntry → s.barrier.zone.occupied = true → ∀ u v : State,
      u = { s with barrier := { s.barrier with zone :=
        if s.barrier.zone.waiting then ⟨false, false, none, none, false⟩ else { s.barrier.zone with occupied := false } } } →
      v = (if s.barrier.zone.waiting = true ∧ s.barrier.zone.condition = true then u.clear .zoneHold ⟨.zone, 0⟩ else u) →
      exec (.zoneEdge false) s = .next v.machinesChanged.settle ∧
      (s.entryDone = true → s.crossing.exitRun = true →
        ∃ w : State, v.machinesChanged = w.tryComplete ∧ w.crossing.state = .lowerExit)) ∧
    (s.crossing.state = .lowerExit → s.barrier.zone.occupied = false → ∃ u : State,
      exec (.zoneEdge true) s = .next u.machinesChanged.settle ∧
      u = { s with crossing := u.crossing, lights := u.lights, barrier := u.barrier } ∧
      u.crossing = { s.crossing with state := .lowerEntry, entered := s.clock, lastDir := u.crossing.lastDir,
                                     remoteOpen := u.crossing.remoteOpen } ∧
      u.lights.command = .flash ∧ u.lights.audible = true ∧
      u.barrier.zone = { s.barrier.zone with occupied := true } ∧
      ∀ (i : Fin 4) (q : MachineRec) (down : Prop), s.machinePresent i = true → s.role i = .exit →
        q = (s.pending.takeWhile fun e => decide (e ≠ .start)).foldl (fun (m : MachineRec) (e : Instr) => match e with
          | .machineDetectorChange k up dn boom => if k = i then m.detectors s.clock true up dn boom else m
          | _ => m) s.barrier.machines[i] →
        (down ↔ s.barrier.machines[i].state = .downProved ∨ q.state = .downProved) →
        (down ∨ s.barrier.machines[i].state = .failed ∨ s.crossing.lastDir[i] = some .raise →
          u.barrier.machines[i] = s.barrier.machines[i] ∧ u.crossing.lastDir[i] = s.crossing.lastDir[i]) ∧
        (¬ down → s.barrier.machines[i].state ≠ .failed → s.crossing.lastDir[i] ≠ some .raise →
          u.barrier.machines[i] = s.barrier.machines[i].command s.clock .raise ∧ u.crossing.lastDir[i] = some .raise)) ∧
    ∀ i : Fin 4, s.crossing.state = .lowerExit → s.barrier.zone.occupied = false → s.machinePresent i = true →
      s.role i = .exit → s.barrier.machines[i].state = .lowering → s.barrier.machines[i].down = false →
      s.barrier.machines[i].boom = true → s.pending = [.machineDetectorChange i false true true] → NoActivation s →
      Reaches (.zoneEdge true) s fun t => ∃ t' : State, step t = .next t' ∧ t'.crossing.state = .lowerEntry ∧
        t'.barrier.zone.occupied = true ∧ t'.barrier.machines[i].state = .downProved ∧
        t'.barrier.machines[i].drive = none ∧ t'.crossing.lastDir[i] = s.crossing.lastDir[i]

/-! ### Faults and reports -/

/-- A clear that finds a record: its source state INACTIVE; held under a latch; a change when the condition was ACTIVE, so that
a SENT record is PENDING again with a new number; and nothing more when it was INACTIVE. The clears of a swap are such
clears (R178). -/
def Obligations.ClearsActOnTheRecordOfTheirPair : Prop :=
  ∀ (t : FaultTable) (now : Time) (code : FaultCode) (source : FaultSource) (i : Fin 63) (r : FaultRec), FaultTableLaw t →
    t.ordinary[i] = some r → r.code = code → r.source = source →
    (r.latched = true → (t.clear now code source).ordinary[i] = some { r with srcActive := false }) ∧
    (r.latched = false → r.active = true → (t.clear now code source).ordinary[i] = some { r with
      srcActive := false, active := false, change := r.change + 1, last := now, age := 0, resend := 0,
      report := .pending, ackBy := none } ∧ i.val ∉ (t.clear now code source).window) ∧
    (r.latched = false → r.active = false →
      (t.clear now code source).ordinary[i] = some { r with srcActive := false }) ∧
    (∀ j, j ≠ i → (t.clear now code source).ordinary[j] = t.ordinary[j]) ∧
    (t.clear now code source).overflow = t.overflow ∧
    ∀ absent : FaultSource → Bool, absent source = true → r.active = true →
      (r.latched = true → (t.clearAbsent now absent).ordinary[i] = some { r with srcActive := false }) ∧
      (r.latched = false → (t.clearAbsent now absent).ordinary[i] = some { r with
        srcActive := false, active := false, change := r.change + 1, last := now, age := 0, resend := 0,
        report := .pending, ackBy := none } ∧ i.val ∉ (t.clearAbsent now absent).window)

/-- ACK REPORT: refused above 63, for a free slot and for a stale number; a record already ACKED stays so; else it is ACKED,
out of the window, with no ack deadline, and the consecutive timeouts are 0 (R186). A latched record at level 0 is released:
no longer latched, its condition that of its source, PENDING with a new number (R182); that the DONE then carries the number
acknowledged and PENDING is the model's choice (log 42). Slot 63 is acknowledged as any other; an INACTIVE ordinary record
that becomes ACKED clears LIST_FULL while its source is ACTIVE, and the overflow record stands where its source is INACTIVE,
or where no slot could be had and the record acknowledged is ACTIVE or latched (R177). The last block has the law of the Fault
Table as its premise, by which a latched record is ACTIVE (R181). -/
def Obligations.AckReportMatchesTheChangeNumber : Prop :=
  ∀ (tag n change : Byte) (s : State),
    (63 < n.toNat → exec (.ackReport tag n change) s = .next (s.hear.reply 0 tag .refusedRange .none).settle) ∧
    (n.toNat ≤ 63 → s.faults.get n.toNat = none →
      exec (.ackReport tag n change) s = .next (s.hear.reply 0 tag .refusedState .none).settle) ∧
    ∀ r, s.faults.get n.toNat = some r →
      (r.change ≠ change → exec (.ackReport tag n change) s =
        .next (s.hear.reply 0 tag .refusedState (.stale n.toNat r.change)).settle) ∧
      (r.change = change → r.report = .acked → exec (.ackReport tag n change) s =
        .next (s.hear.reply 0 tag .done (.ack n.toNat change .acked)).settle) ∧
      (r.change = change → r.report ≠ .acked → r.latched = false ∨ 0 < r.level → n.toNat < 63 → ∃ u : FaultTable,
        exec (.ackReport tag n change) s =
          .next (State.reply { s.hear with faults := u } 0 tag .done (.ack n.toNat change .acked)).settle ∧
        u.get n.toNat = some { r with report := .acked, ackBy := none } ∧ n.toNat ∉ u.window ∧ u.timeouts = 0 ∧
        u.process = s.hear.faults.process ∧ ∀ m, m ≠ n.toNat → m ≠ 63 → u.get m = s.faults.get m) ∧
      (FaultTableLaw s.faults → r.change = change → r.report ≠ .acked →
        n.toNat < 63 ∨ (s.faults.overflow.srcActive = true → s.faults.hasRoom = false) → ∃ (u : FaultTable) (st : ReportState),
        exec (.ackReport tag n change) s =
          .next (State.reply { s.hear with faults := u } 0 tag .done (.ack n.toNat change st)).settle ∧
        n.toNat ∉ u.window ∧ u.timeouts = 0 ∧ u.process = s.hear.faults.process ∧
        (r.latched = false ∨ 0 < r.level → st = .acked ∧ u.get n.toNat = some { r with report := .acked, ackBy := none }) ∧
        (r.latched = true → r.level = 0 → st = .pending ∧ u.get n.toNat = some { r with
          latched := false, active := r.srcActive, change := r.change + 1, last := s.clock, age := 0, resend := 0,
          report := .pending, ackBy := none }) ∧
        (∀ m, m ≠ n.toNat → m ≠ 63 → u.get m = s.faults.get m) ∧
        (n.toNat < 63 → s.faults.overflow.srcActive = false ∨ (s.faults.hasRoom = false ∧ (r.active = true ∨ r.latched = true)) →
          u.overflow = s.faults.overflow) ∧
        (n.toNat < 63 → s.faults.overflow.srcActive = true → r.active = false → r.latched = false →
          (s.faults.overflow.latched = true → u.overflow = { s.faults.overflow with srcActive := false }) ∧
          (s.faults.overflow.latched = false → s.faults.overflow.active = true → u.overflow = { s.faults.overflow with
            srcActive := false, active := false, change := s.faults.overflow.change + 1, last := s.clock, age := 0,
            resend := 0, report := .pending, ackBy := none } ∧ 63 ∉ u.window)))

/-- REPORTS START and STOP move the process, STOP returning every SENT record to PENDING; CLASS ENABLE sets its enable; CLEAR
ACKED frees the ACKED and INACTIVE ordinary records and counts them, returns an ACKED and INACTIVE overflow record to the
unused values, and clears LIST_FULL when a slot can then be had (R177, R178, R183, R188, R189). That the age of the overflow
record returns to 0 with the rest is the model's choice (log 39). -/
def Obligations.ReportCommandsMoveTheProcess : Prop :=
  ∀ (tag cls value : Byte) (s : State),
    exec (.reportsStart tag) s = .next (State.settle (State.reply { s with
      faults := if s.faults.process = .running then s.faults else { s.faults with process := .running, timeouts := 0 } }
      0 tag .done (.process .running))) ∧
    (FaultTableLaw s.faults → NoActivation s → Reaches (.reportsStop tag) s fun t =>
      LineFrame { s with faults := t.faults } t ∧ t.faults.process = .stopped ∧ t.faults.window = [] ∧
      ∀ k r, s.faults.get k = some r → t.faults.get k = some
        (if r.report = .sent then { r with report := .pending, ackBy := none, resend := min 255 (r.resend + 1) } else r)) ∧
    (1 < cls.toNat ∨ 1 < value.toNat →
      exec (.classEnable tag cls value) s = .next (s.hear.reply 0 tag .refusedRange .none).settle) ∧
    (cls = 1 → value.toNat ≤ 1 → exec (.classEnable tag cls value) s =
      .next (State.settle (State.reply { s.hear with faults := { s.hear.faults with advisory := decide (value = 1) } }
        0 tag .done (.enables (decide (value = 1)) s.faults.info)))) ∧
    (cls = 0 → value.toNat ≤ 1 → exec (.classEnable tag cls value) s =
      .next (State.settle (State.reply { s.hear with faults := { s.hear.faults with info := decide (value = 1) } }
        0 tag .done (.enables s.faults.advisory (decide (value = 1)))))) ∧
    ∃ u : FaultTable, exec (.clearAcked tag) s = .next (State.settle (State.reply { s.hear with faults := u } 0 tag .done
        (.freed ((List.finRange 63).countP fun i => (s.faults.ordinary[i]).any FaultRec.spent)))) ∧
      ((s.faults.overflow.srcActive = true → s.faults.hasRoom = false) → u.window = s.faults.window) ∧
      u.process = s.hear.faults.process ∧
      (s.faults.hasRoom = true ↔ ∃ i : Fin 63, ∀ r, s.faults.ordinary[i] = some r → r.report = .acked ∧ r.active = false) ∧
      (s.faults.overflow.report = .acked → s.faults.overflow.active = false → u.overflow =
        { code := .listFull, source := ⟨.faultTable, 0⟩, cls := .urgent, active := false, srcActive := false, report := .acked,
          change := 0, raises := 0, level := 0, drain := none, latched := false, first := 0, last := 0, age := 0, resend := 0,
          ackBy := none }) ∧
      (s.faults.overflow.report ≠ .acked ∨ s.faults.overflow.active = true →
        (s.faults.overflow.srcActive = false ∨ s.faults.hasRoom = false → u.overflow = s.faults.overflow) ∧
        (s.faults.overflow.srcActive = true → s.faults.hasRoom = true → s.faults.overflow.latched = true →
          u.overflow = { s.faults.overflow with srcActive := false }) ∧
        (s.faults.overflow.srcActive = true → s.faults.hasRoom = true → s.faults.overflow.latched = false →
          s.faults.overflow.active = true → u.overflow = { s.faults.overflow with
            srcActive := false, active := false, change := s.faults.overflow.change + 1, last := s.clock, age := 0,
            resend := 0, report := .pending, ackBy := none } ∧ 63 ∉ u.window)) ∧
      ∀ i : Fin 63, u.ordinary[i] = if (s.faults.ordinary[i]).any FaultRec.spent then none else s.faults.ordinary[i]

/-- A raise of a pair that has a record raises its count and level, and is a change unless the record was latched; a level
above 12 latches it; a momentary raise leaves it INACTIVE unless it is latched (R175, R179 to R181). A raise of a new pair
takes the lowest free slot, else the spent record of greatest age and lowest slot, else it is lost and counted in the
overflow record (R176, R177). A drain deadline lowers the level by one, releasing a latched ACKED record at 0; an ack
deadline returns its record to PENDING, and the third in a row suspends the process (R180, R182, R187, R188). A deadline
before its time does nothing; that is the model's choice (log 2). -/
def Obligations.RecordDeadlinesDrainAndReturn : Prop :=
  (∀ (t : FaultTable) (now : Time) (len : Nat) (code : FaultCode) (source : FaultSource) (cls : FaultClass), FaultTableLaw t →
    (∀ (i : Fin 63) (r u : FaultRec), t.ordinary[i] = some r → r.code = code → r.source = source →
      u = { r with level := min 15 (r.level + 4), drain := if r.level = 0 then some (now + BitVec.ofNat 32 len) else r.drain,
                   raises := min 65535 (r.raises + 1), srcActive := true, cls := cls } →
      (r.latched = true → (t.raise now len code source cls).ordinary[i] = some u ∧
        (t.moment now len code source cls).ordinary[i] = some { u with srcActive := false }) ∧
      (r.latched = false → ∀ v, v = { u with
          active := true, change := r.change + 1, last := now, age := 0, resend := 0, report := .pending, ackBy := none } →
        (u.level ≤ 12 → (t.raise now len code source cls).ordinary[i] = some v ∧
          (t.moment now len code source cls).ordinary[i] = some { v with active := false, srcActive := false }) ∧
        (12 < u.level → (t.raise now len code source cls).ordinary[i] = some { v with latched := true } ∧
          (t.moment now len code source cls).ordinary[i] = some { v with latched := true, srcActive := false }) ∧
        i.val ∉ (t.raise now len code source cls).window) ∧
      (∀ j, j ≠ i → (t.raise now len code source cls).ordinary[j] = t.ordinary[j]) ∧
      (t.raise now len code source cls).overflow = t.overflow) ∧
    ((∀ (i : Fin 63) (r : FaultRec), t.ordinary[i] = some r → r.code = code → r.source ≠ source) →
      (∀ i : Fin 63,
        (t.ordinary[i] = none ∧ ∀ j : Fin 63, j < i → t.ordinary[j] ≠ none) ∨
          ((∀ j : Fin 63, t.ordinary[j] ≠ none) ∧ ∃ r, t.ordinary[i] = some r ∧ r.spent = true ∧
            ∀ (j : Fin 63) (x : FaultRec), t.ordinary[j] = some x → x.spent = true → x.age < r.age ∨ (x.age = r.age ∧ i ≤ j)) →
        ∀ v : FaultRec, v =
          { code := code, source := source, cls := cls, active := true, srcActive := true, report := .pending,
            change := 0, raises := 1, level := 4, drain := some (now + BitVec.ofNat 32 len), latched := false,
            first := now, last := now, age := 0, resend := 0, ackBy := none } →
        (t.raise now len code source cls).ordinary[i] = some v ∧
        (t.moment now len code source cls).ordinary[i] = some { v with active := false, srcActive := false } ∧
        (∀ j, j ≠ i → (t.raise now len code source cls).ordinary[j] = t.ordinary[j]) ∧
        (t.raise now len code source cls).overflow = t.overflow) ∧
      ((∀ i : Fin 63, ∃ r, t.ordinary[i] = some r ∧ r.spent = false) → ∀ u : FaultTable,
        u = t.raise now len code source cls ∨ u = t.moment now len code source cls →
        u.ordinary = t.ordinary ∧ u.overflow.raises = min 65535 (t.overflow.raises + 1) ∧ u.overflow.srcActive = true ∧
        u.overflow.active = true ∧ u.overflow.level = min 15 (t.overflow.level + 4) ∧
        u.overflow.first = (if t.overflow.raises = 0 then now else t.overflow.first) ∧
        (t.overflow.latched = true → u.overflow.change = t.overflow.change ∧ u.overflow.report = t.overflow.report) ∧
        (t.overflow.latched = false → u.overflow.change = t.overflow.change + 1 ∧ u.overflow.report = .pending ∧
          u.overflow.latched = decide (12 < min 15 (t.overflow.level + 4)) ∧ 63 ∉ u.window)))) ∧
  ∀ (n : Fin 64) (r : FaultRec) (s : State), s.faults.get n.val = some r →
    (due r.drain s.clock = false → exec (.drainDeadline n) s = .next s.settle) ∧
    (due r.drain s.clock = true → ∃ u : FaultTable, exec (.drainDeadline n) s = .next (State.settle { s with faults := u }) ∧
      (∀ m, m ≠ n.val → u.get m = s.faults.get m) ∧ u.process = s.faults.process ∧ u.timeouts = s.faults.timeouts ∧
      (r.latched = false ∨ 1 < r.level ∨ r.report ≠ .acked → u.get n.val = some { r with
        level := r.level - 1, drain := if 1 < r.level then some (s.clock + BitVec.ofNat 32 s.tDrain) else none }) ∧
      (r.latched = true → r.level ≤ 1 → r.report = .acked → u.get n.val = some { r with
        level := 0, drain := none, latched := false, active := r.srcActive, change := r.change + 1, last := s.clock,
        age := 0, resend := 0, report := .pending, ackBy := none })) ∧
    (r.report ≠ .sent ∨ due r.ackBy s.clock = false → exec (.ackDeadline n) s = .next s.settle) ∧
    (r.report = .sent → due r.ackBy s.clock = true → FaultTableLaw s.faults → ∃ u : FaultTable,
      exec (.ackDeadline n) s = .next (State.settle { s with faults := u }) ∧
      u.get n.val = some { r with report := .pending, ackBy := none, resend := min 255 (r.resend + 1) } ∧
      u.timeouts = s.faults.timeouts + 1 ∧
      (s.faults.timeouts < 2 → u.process = s.faults.process ∧ u.window = s.faults.window.filter (fun m => m ≠ n.val) ∧
        ∀ m, m ≠ n.val → u.get m = s.faults.get m) ∧
      (2 ≤ s.faults.timeouts → u.process = .suspended ∧ u.window = []))

/-! ### Status, readback and isolation -/

/-- The STATUS period builds and offers a STATUS. It carries the crossing state, PROTECTED, which holds only in CLOSED with
every present machine down and a red proven in every present group, the owner and the prior owner, the state and FORCED of
approaches 0 to 7, the number of sections DISTURBED or RESTORING, the four group and machine states, reports-held while the
process is STOPPED or SUSPENDED, activation-pending, and the active plan's id and version; what the plan does not declare is
ABSENT, and with no plan the id and version are 0 (R191). READ answers REFUSED_RANGE for a kind above 12, an index beyond
its kind and an absent group or position; else DONE with the fields of the object in the order of its record's table, a
bank's state with those of the standby and the active bank (R15, R53, R66, R73, R87, R110, R130, R144, R157, R170, R172,
R184, R193), and it changes nothing else. PORT ISOLATE and PORT RESTORE act on the field port (R31, R128, R191, R194). A
STATUS period before its time does nothing. That, the place of what R15, R131, R157 and R184 add to a record's table, and
the order of the fault table's counts and sizes, are the model's choice (logs 2 and 5). -/
def Obligations.StatusReadbackAndIsolation : Prop :=
  (∀ (tag kind index : Byte) (s : State),
    (s.statusNow.protect = true ↔ s.crossing.state = .closed ∧
      (∀ i : Fin 4, s.machinePresent i = true → s.barrier.machines[i].state = .downProved) ∧
      ∀ g : Fin 4, s.groupPresent g = true →
        s.lights.groups[g].redA.state = .proven ∨ s.lights.groups[g].redB.state = .proven) ∧
    (s.statusDue = false → exec .statusPeriod s = .next s.settle) ∧
    (∀ a t0, s.lif.station = some a → s.lif.box.state = .active → s.builder.lastAt = some t0 →
      reached (after t0 1000) s.clock = true → exec .statusPeriod s =
        .next (State.settle (State.offerStatus { s with builder := ⟨some s.statusNow, some s.clock⟩ }
          ⟨0, a, .status s.statusNow, .own⟩))) ∧
    (∀ d, s.hear.readback kind.toNat index.toNat = some d →
      exec (.read tag kind index) s = .next (s.hear.reply 0 tag .done (.read d)).settle) ∧
    (s.hear.readback kind.toNat index.toNat = none →
      exec (.read tag kind index) s = .next (s.hear.reply 0 tag .refusedRange .none).settle) ∧
    (s.lif.field.state = .isolated →
      exec (.portIsolate tag) s = .next (s.hear.reply 0 tag .refusedState .none).settle ∧
      exec (.portRestore tag) s = .next (State.settle (State.reply (State.raise
        { s.hear with lif := { s.lif with field := { s.lif.field with state := .down } } } .portDown ⟨.port, 1⟩ .urgent)
        0 tag .done (.port .down)))) ∧
    (s.lif.field.state ≠ .isolated →
      exec (.portRestore tag) s = .next (s.hear.reply 0 tag .refusedState .none).settle ∧
      ∀ (cut emptied : Nat), cut = (if s.lif.field.sending = none then 0 else 1) →
        emptied = min 65535 (min 65535 (s.lif.field.counters.emptied + cut) + s.lif.qf.length) →
        exec (.portIsolate tag) s = .next (State.settle (State.reply (State.clear
          { s.hear with lif := { s.lif with qf := [], field := { s.lif.field with
            state := .isolated, sending := none, counters := { s.lif.field.counters with emptied := emptied } } } }
          .portDown ⟨.port, 1⟩) 0 tag .done (.port .isolated))))) ∧
  (∀ (s : State) (c : StatusContent), c = s.statusNow →
    c.crossing = s.crossing.state ∧ c.owner = s.authority.owner ∧ c.prior = s.authority.prior ∧
    (c.held = true ↔ s.faults.process = .stopped ∨ s.faults.process = .suspended) ∧
    (c.pending = true ↔ s.store.pending = true) ∧
    (∀ i, i < 8 → c.demands[i]? = some ((s.demands[i]?).map fun d => ⟨d.state, d.forced⟩)) ∧
    c.doubtful = s.sects.countP (fun r => decide (r.state = .disturbed ∨ r.state = .restoring)) ∧
    (∀ g : Fin 4, c.groups[g.val]? = some (if s.groupPresent g then some s.lights.groups[g].state else none)) ∧
    (∀ i : Fin 4, c.machines[i.val]? = some (if s.machinePresent i then some s.barrier.machines[i].state else none)) ∧
    (∀ g : Fin 4, s.groupPresent g = true ↔ ∃ p, s.store.plan = some p ∧ p.groups[g].present = true) ∧
    (∀ i : Fin 4, s.machinePresent i = true ↔ ∃ p, s.store.plan = some p ∧ p.machines[i].present = true) ∧
    (∀ p, s.store.plan = some p → c.planId = p.planId ∧ c.version = p.version) ∧
    (s.store.plan = none → c.planId = 0 ∧ c.version = 0)) ∧
  ∀ s : State,
    (RecordsMatchPlan s → ∀ kind n : Nat, s.readback kind n = none ↔
      (kind = 0 ∧ s.dpTable.length ≤ n) ∨ (kind = 1 ∧ 7 < n) ∨ (kind = 2 ∧ s.sectTable.length ≤ n) ∨
      (kind = 3 ∧ s.approachTable.length ≤ n) ∨ ((kind = 4 ∨ kind = 5 ∨ kind = 10) ∧ n ≠ 0) ∨
      (kind = 6 ∧ ∀ (g : Fin 4) (k : LampKind), n = 3 * g.val + k.place → s.groupPresent g = false) ∨
      (kind = 7 ∧ ∀ g : Fin 4, n = g.val → s.groupPresent g = false) ∨
      (kind = 8 ∧ ∀ i : Fin 4, n = i.val → s.machinePresent i = false) ∨ (kind = 9 ∧ 63 < n) ∨
      ((kind = 11 ∨ kind = 12) ∧ 1 < n) ∨ 12 < kind) ∧
    (∀ n r, s.dps[n]? = some r → s.readback 0 n = some
      [.dpState r.state, .flag r.baseline, .number r.seq.toNat, .number r.inc, .number r.dec, .health r.health, .flag r.restart,
       .side r.port, .time r.lastTime, .optTime r.deadline, .number r.missed, .number r.deltaInc, .number r.deltaDec,
       .optTime r.lastEvent]) ∧
    (∀ (h : Fin 8) (r : HeadRec), r = s.heads[h] → s.readback 1 h.val = some
      [.flag r.failed, .headCause r.cause, .number r.inc, .number r.dec, .times r.oneChannel, .channel r.a.since r.a.last,
       .channel r.b.since r.b.last, .unpaired r.a.unpaired r.b.unpaired, .number r.seq.toNat, .flag r.restarted,
       .optTime r.earliest, .time r.lastSent, .health r.sentHealth]) ∧
    (∀ n r e, s.sects[n]? = some r → s.sectTable[n]? = some e → s.readback 2 n = some
      [.sectState r.state, .number r.count, .sectCause r.cause, .time r.disturbedAt, .restore r.restored, .number r.balance,
       .number r.inTotal, .number r.outTotal, .flag r.entered, .flag r.left, .number e.id, .number e.track, .sectKind e.kind]) ∧
    (∀ n r e, s.demands[n]? = some r → s.approachTable[n]? = some e → s.readback 3 n = some
      [.demandState r.state, .flag r.forced, .warnCause r.cause, .optTime r.t1, .optNumber r.point, .optTime r.pointTime,
       .optNumber r.speed, .optTime r.ts, .time r.warnBegan, .time r.progress, .optNumber r.lastWarning, .flag r.late,
       .number e.track, .countDir e.dir]) ∧
    (∀ r, r = s.crossing → s.readback 4 0 = some
      [.crossingState r.state, .time r.entered, .optTime r.loweringStart, .optTime r.stateTimer, .optTime r.exitTimer,
       .directions [r.lastDir[0], r.lastDir[1], r.lastDir[2], r.lastDir[3]], .demandView r.demandView, .islandView r.islandView,
       .flag r.remoteClose, .flag r.remoteOpen, .causes s.causes, .flag s.machineFailed, .flag s.protect]) ∧
    (∀ r, r = s.authority → s.readback 5 0 = some
      [.owner r.owner, .owner r.prior, .time r.changed, .flag r.remoteRequest, .flag r.testRequest, .flag r.key,
       .flag r.localRelease, .flag s.locked, .step r.step, .stepPhase r.phase, .optTime r.stepEnd, .stepOutcome r.outcome,
       .number r.stepTag.toNat, .flag s.localEnable, .flag s.remoteEnable, .flag s.testEnable]) ∧
    (∀ (g : Fin 4), s.groupPresent g = true →
      (∀ (k : LampKind) (l : Lamp), l = s.lights.groups[g].lamp k → s.readback 6 (3 * g.val + k.place) = some
        [.lampState l.state, .number l.good, .number l.bad, .optNumber l.last, .sampleKind l.kind, .flag l.driven,
         .flag l.enabled, .flag l.lit, .optNumber l.dark]) ∧
      s.readback 7 g.val = some [.groupState s.lights.groups[g].state, .lampState s.lights.groups[g].amber.state,
        .lampState s.lights.groups[g].redA.state, .lampState s.lights.groups[g].redB.state]) ∧
    (∀ (i : Fin 4) (r : MachineRec) (z : ZoneRec), s.machinePresent i = true → r = s.barrier.machines[i] → z = s.barrier.zone →
      s.readback 8 i.val = some
        [.machineState r.state, .optDir r.commanded, .optDir r.drive, .optTime r.cmdTime, .flag r.leaveMet, .optTime r.leaveBy,
         .optTime r.travelBy, .flag r.up, .flag r.down, .flag r.boom, .machineCause r.cause, .optTime r.failTime,
         .optNumber r.lastTravel, .number r.tLeave, .number r.tTravel, .role (s.role i), .flag z.occupied, .flag z.waiting,
         .optTime z.holdStart, .optTime z.holdBy, .flag z.condition]) ∧
    (∀ n, n ≤ 63 → (s.faults.get n = none → s.readback 9 n = some [.slotFree]) ∧
      ∀ r, s.faults.get n = some r → s.readback 9 n = some
        [.faultCode r.code, .source r.source, .faultClass r.cls, .flag r.active, .flag r.srcActive, .reportState r.report,
         .number r.change.toNat, .number r.raises, .number r.level, .optTime r.drain, .flag r.latched, .time r.first,
         .time r.last, .number r.age, .number r.resend, .optTime r.ackBy]) ∧
    (∀ (t : FaultTable) (num : ReportState → Nat) (size : FaultClass → Nat), t = s.faults →
      (∀ st, num st = (List.range 64).countP fun n => (t.get n).any fun r => decide (r.report = st)) →
      (∀ cls, size cls = (List.range 64).countP fun n => (t.get n).any fun r => decide (r.report = .pending ∧ r.cls = cls)) →
      s.readback 10 0 = some
        [.process t.process, .numbers t.window, .number t.timeouts, .flag t.advisory, .flag t.info, .number (num .pending),
         .number (num .sent), .number (num .acked), .number (size .safety), .number (size .urgent), .number (size .advisory),
         .number (size .info)]) ∧
    (∀ (p : Port) (r : PortRec) (c : Counters) (fills : List Nat), r = s.port p → c = r.counters →
      fills = (if p = .box then [s.lif.q3.length, s.lif.q2.length, s.lif.q1.length, s.lif.q0.length] else [s.lif.qf.length]) →
      s.readback 11 (if p = .box then 0 else 1) = some
        [.portState r.state, .flag r.inverted, .flag r.lineErrors, .flag r.lineLoop, .numbers fills, .number c.received,
         .number c.errors, .number c.loops, .number c.checking, .number c.consumed, .number c.refusedSource,
         .number c.unexpected, .number c.overHop, .number c.relayed, .number c.delivered, .number c.wrongSide,
         .number c.notActive, .number c.full, .number c.replaced, .number c.emptied, .number c.transmitted]) ∧
    ∀ (k : BankId) (x : Bank), x = s.store.bank k → s.readback 12 (if k = .a then 0 else 1) = some
      [.bankState x.state, .bankState s.store.standby.state, .bankState (s.store.bank s.store.selected).state,
       .checkResult x.result, .flag (decide (k = s.store.selected)), .flag s.store.pending,
       .writeRecord (s.store.write.map fun w => (w.block, w.tag)), .number (u16 x.image 0), .number (u8 x.image 2),
       .number (u16 x.image 4), .number (u32 x.image 6)]
end

