-- ==== Sys2Proof/Laws/State.lean ====
section
/-! SUPPORT. One lemma for each field that a named update of the state leaves as it was, and for the field it changes. -/

namespace Sys2Proof.Machine

open Sys2Proof

/-! ### `setDp` -/

@[simp] theorem setDp_pending (s : State) (i : Nat) (r : DpRec) : (s.setDp i r).pending = s.pending := rfl
@[simp] theorem setDp_clock (s : State) (i : Nat) (r : DpRec) : (s.setDp i r).clock = s.clock := rfl
@[simp] theorem setDp_us (s : State) (i : Nat) (r : DpRec) : (s.setDp i r).us = s.us := rfl
@[simp] theorem setDp_draws (s : State) (i : Nat) (r : DpRec) : (s.setDp i r).draws = s.draws := rfl
@[simp] theorem setDp_pins (s : State) (i : Nat) (r : DpRec) : (s.setDp i r).pins = s.pins := rfl
@[simp] theorem setDp_store (s : State) (i : Nat) (r : DpRec) : (s.setDp i r).store = s.store := rfl
@[simp] theorem setDp_lif (s : State) (i : Nat) (r : DpRec) : (s.setDp i r).lif = s.lif := rfl
@[simp] theorem setDp_heads (s : State) (i : Nat) (r : DpRec) : (s.setDp i r).heads = s.heads := rfl
@[simp] theorem setDp_sects (s : State) (i : Nat) (r : DpRec) : (s.setDp i r).sects = s.sects := rfl
@[simp] theorem setDp_demands (s : State) (i : Nat) (r : DpRec) : (s.setDp i r).demands = s.demands := rfl
@[simp] theorem setDp_crossing (s : State) (i : Nat) (r : DpRec) : (s.setDp i r).crossing = s.crossing := rfl
@[simp] theorem setDp_authority (s : State) (i : Nat) (r : DpRec) : (s.setDp i r).authority = s.authority := rfl
@[simp] theorem setDp_lights (s : State) (i : Nat) (r : DpRec) : (s.setDp i r).lights = s.lights := rfl
@[simp] theorem setDp_barrier (s : State) (i : Nat) (r : DpRec) : (s.setDp i r).barrier = s.barrier := rfl
@[simp] theorem setDp_faults (s : State) (i : Nat) (r : DpRec) : (s.setDp i r).faults = s.faults := rfl
@[simp] theorem setDp_builder (s : State) (i : Nat) (r : DpRec) : (s.setDp i r).builder = s.builder := rfl

/-! ### `onHead` -/

@[simp] theorem onHead_pending (s : State) (h : Fin 8) (f : HeadRec → HeadRec) : (s.onHead h f).pending = s.pending := rfl
@[simp] theorem onHead_clock (s : State) (h : Fin 8) (f : HeadRec → HeadRec) : (s.onHead h f).clock = s.clock := rfl
@[simp] theorem onHead_us (s : State) (h : Fin 8) (f : HeadRec → HeadRec) : (s.onHead h f).us = s.us := rfl
@[simp] theorem onHead_draws (s : State) (h : Fin 8) (f : HeadRec → HeadRec) : (s.onHead h f).draws = s.draws := rfl
@[simp] theorem onHead_pins (s : State) (h : Fin 8) (f : HeadRec → HeadRec) : (s.onHead h f).pins = s.pins := rfl
@[simp] theorem onHead_store (s : State) (h : Fin 8) (f : HeadRec → HeadRec) : (s.onHead h f).store = s.store := rfl
@[simp] theorem onHead_lif (s : State) (h : Fin 8) (f : HeadRec → HeadRec) : (s.onHead h f).lif = s.lif := rfl
@[simp] theorem onHead_dps (s : State) (h : Fin 8) (f : HeadRec → HeadRec) : (s.onHead h f).dps = s.dps := rfl
@[simp] theorem onHead_sects (s : State) (h : Fin 8) (f : HeadRec → HeadRec) : (s.onHead h f).sects = s.sects := rfl
@[simp] theorem onHead_demands (s : State) (h : Fin 8) (f : HeadRec → HeadRec) : (s.onHead h f).demands = s.demands := rfl
@[simp] theorem onHead_crossing (s : State) (h : Fin 8) (f : HeadRec → HeadRec) : (s.onHead h f).crossing = s.crossing := rfl
@[simp] theorem onHead_authority (s : State) (h : Fin 8) (f : HeadRec → HeadRec) : (s.onHead h f).authority = s.authority := rfl
@[simp] theorem onHead_lights (s : State) (h : Fin 8) (f : HeadRec → HeadRec) : (s.onHead h f).lights = s.lights := rfl
@[simp] theorem onHead_barrier (s : State) (h : Fin 8) (f : HeadRec → HeadRec) : (s.onHead h f).barrier = s.barrier := rfl
@[simp] theorem onHead_faults (s : State) (h : Fin 8) (f : HeadRec → HeadRec) : (s.onHead h f).faults = s.faults := rfl
@[simp] theorem onHead_builder (s : State) (h : Fin 8) (f : HeadRec → HeadRec) : (s.onHead h f).builder = s.builder := rfl

/-! ### `setMachine` -/

@[simp] theorem setMachine_pending (s : State) (i : Fin 4) (r : MachineRec) : (s.setMachine i r).pending = s.pending := rfl
@[simp] theorem setMachine_clock (s : State) (i : Fin 4) (r : MachineRec) : (s.setMachine i r).clock = s.clock := rfl
@[simp] theorem setMachine_us (s : State) (i : Fin 4) (r : MachineRec) : (s.setMachine i r).us = s.us := rfl
@[simp] theorem setMachine_draws (s : State) (i : Fin 4) (r : MachineRec) : (s.setMachine i r).draws = s.draws := rfl
@[simp] theorem setMachine_pins (s : State) (i : Fin 4) (r : MachineRec) : (s.setMachine i r).pins = s.pins := rfl
@[simp] theorem setMachine_store (s : State) (i : Fin 4) (r : MachineRec) : (s.setMachine i r).store = s.store := rfl
@[simp] theorem setMachine_lif (s : State) (i : Fin 4) (r : MachineRec) : (s.setMachine i r).lif = s.lif := rfl
@[simp] theorem setMachine_dps (s : State) (i : Fin 4) (r : MachineRec) : (s.setMachine i r).dps = s.dps := rfl
@[simp] theorem setMachine_heads (s : State) (i : Fin 4) (r : MachineRec) : (s.setMachine i r).heads = s.heads := rfl
@[simp] theorem setMachine_sects (s : State) (i : Fin 4) (r : MachineRec) : (s.setMachine i r).sects = s.sects := rfl
@[simp] theorem setMachine_demands (s : State) (i : Fin 4) (r : MachineRec) : (s.setMachine i r).demands = s.demands := rfl
@[simp] theorem setMachine_crossing (s : State) (i : Fin 4) (r : MachineRec) : (s.setMachine i r).crossing = s.crossing := rfl
@[simp] theorem setMachine_authority (s : State) (i : Fin 4) (r : MachineRec) : (s.setMachine i r).authority = s.authority := rfl
@[simp] theorem setMachine_lights (s : State) (i : Fin 4) (r : MachineRec) : (s.setMachine i r).lights = s.lights := rfl
@[simp] theorem setMachine_faults (s : State) (i : Fin 4) (r : MachineRec) : (s.setMachine i r).faults = s.faults := rfl
@[simp] theorem setMachine_builder (s : State) (i : Fin 4) (r : MachineRec) : (s.setMachine i r).builder = s.builder := rfl

/-! ### `setZone` -/

@[simp] theorem setZone_pending (s : State) (z : ZoneRec) : (s.setZone z).pending = s.pending := rfl
@[simp] theorem setZone_clock (s : State) (z : ZoneRec) : (s.setZone z).clock = s.clock := rfl
@[simp] theorem setZone_us (s : State) (z : ZoneRec) : (s.setZone z).us = s.us := rfl
@[simp] theorem setZone_draws (s : State) (z : ZoneRec) : (s.setZone z).draws = s.draws := rfl
@[simp] theorem setZone_pins (s : State) (z : ZoneRec) : (s.setZone z).pins = s.pins := rfl
@[simp] theorem setZone_store (s : State) (z : ZoneRec) : (s.setZone z).store = s.store := rfl
@[simp] theorem setZone_lif (s : State) (z : ZoneRec) : (s.setZone z).lif = s.lif := rfl
@[simp] theorem setZone_dps (s : State) (z : ZoneRec) : (s.setZone z).dps = s.dps := rfl
@[simp] theorem setZone_heads (s : State) (z : ZoneRec) : (s.setZone z).heads = s.heads := rfl
@[simp] theorem setZone_sects (s : State) (z : ZoneRec) : (s.setZone z).sects = s.sects := rfl
@[simp] theorem setZone_demands (s : State) (z : ZoneRec) : (s.setZone z).demands = s.demands := rfl
@[simp] theorem setZone_crossing (s : State) (z : ZoneRec) : (s.setZone z).crossing = s.crossing := rfl
@[simp] theorem setZone_authority (s : State) (z : ZoneRec) : (s.setZone z).authority = s.authority := rfl
@[simp] theorem setZone_lights (s : State) (z : ZoneRec) : (s.setZone z).lights = s.lights := rfl
@[simp] theorem setZone_faults (s : State) (z : ZoneRec) : (s.setZone z).faults = s.faults := rfl
@[simp] theorem setZone_builder (s : State) (z : ZoneRec) : (s.setZone z).builder = s.builder := rfl

/-! ### `report` -/

@[simp] theorem report_pending (s : State) (acts : List FaultAct) : (s.report acts).pending = s.pending := rfl
@[simp] theorem report_clock (s : State) (acts : List FaultAct) : (s.report acts).clock = s.clock := rfl
@[simp] theorem report_us (s : State) (acts : List FaultAct) : (s.report acts).us = s.us := rfl
@[simp] theorem report_draws (s : State) (acts : List FaultAct) : (s.report acts).draws = s.draws := rfl
@[simp] theorem report_pins (s : State) (acts : List FaultAct) : (s.report acts).pins = s.pins := rfl
@[simp] theorem report_store (s : State) (acts : List FaultAct) : (s.report acts).store = s.store := rfl
@[simp] theorem report_lif (s : State) (acts : List FaultAct) : (s.report acts).lif = s.lif := rfl
@[simp] theorem report_dps (s : State) (acts : List FaultAct) : (s.report acts).dps = s.dps := rfl
@[simp] theorem report_heads (s : State) (acts : List FaultAct) : (s.report acts).heads = s.heads := rfl
@[simp] theorem report_sects (s : State) (acts : List FaultAct) : (s.report acts).sects = s.sects := rfl
@[simp] theorem report_demands (s : State) (acts : List FaultAct) : (s.report acts).demands = s.demands := rfl
@[simp] theorem report_crossing (s : State) (acts : List FaultAct) : (s.report acts).crossing = s.crossing := rfl
@[simp] theorem report_authority (s : State) (acts : List FaultAct) : (s.report acts).authority = s.authority := rfl
@[simp] theorem report_lights (s : State) (acts : List FaultAct) : (s.report acts).lights = s.lights := rfl
@[simp] theorem report_barrier (s : State) (acts : List FaultAct) : (s.report acts).barrier = s.barrier := rfl
@[simp] theorem report_builder (s : State) (acts : List FaultAct) : (s.report acts).builder = s.builder := rfl

/-! ### `raise` -/

@[simp] theorem raise_pending (s : State) (c : FaultCode) (src : FaultSource) (cls : FaultClass) : (s.raise c src cls).pending = s.pending := rfl
@[simp] theorem raise_clock (s : State) (c : FaultCode) (src : FaultSource) (cls : FaultClass) : (s.raise c src cls).clock = s.clock := rfl
@[simp] theorem raise_us (s : State) (c : FaultCode) (src : FaultSource) (cls : FaultClass) : (s.raise c src cls).us = s.us := rfl
@[simp] theorem raise_draws (s : State) (c : FaultCode) (src : FaultSource) (cls : FaultClass) : (s.raise c src cls).draws = s.draws := rfl
@[simp] theorem raise_pins (s : State) (c : FaultCode) (src : FaultSource) (cls : FaultClass) : (s.raise c src cls).pins = s.pins := rfl
@[simp] theorem raise_store (s : State) (c : FaultCode) (src : FaultSource) (cls : FaultClass) : (s.raise c src cls).store = s.store := rfl
@[simp] theorem raise_lif (s : State) (c : FaultCode) (src : FaultSource) (cls : FaultClass) : (s.raise c src cls).lif = s.lif := rfl
@[simp] theorem raise_dps (s : State) (c : FaultCode) (src : FaultSource) (cls : FaultClass) : (s.raise c src cls).dps = s.dps := rfl
@[simp] theorem raise_heads (s : State) (c : FaultCode) (src : FaultSource) (cls : FaultClass) : (s.raise c src cls).heads = s.heads := rfl
@[simp] theorem raise_sects (s : State) (c : FaultCode) (src : FaultSource) (cls : FaultClass) : (s.raise c src cls).sects = s.sects := rfl
@[simp] theorem raise_demands (s : State) (c : FaultCode) (src : FaultSource) (cls : FaultClass) : (s.raise c src cls).demands = s.demands := rfl
@[simp] theorem raise_crossing (s : State) (c : FaultCode) (src : FaultSource) (cls : FaultClass) : (s.raise c src cls).crossing = s.crossing := rfl
@[simp] theorem raise_authority (s : State) (c : FaultCode) (src : FaultSource) (cls : FaultClass) : (s.raise c src cls).authority = s.authority := rfl
@[simp] theorem raise_lights (s : State) (c : FaultCode) (src : FaultSource) (cls : FaultClass) : (s.raise c src cls).lights = s.lights := rfl
@[simp] theorem raise_barrier (s : State) (c : FaultCode) (src : FaultSource) (cls : FaultClass) : (s.raise c src cls).barrier = s.barrier := rfl
@[simp] theorem raise_builder (s : State) (c : FaultCode) (src : FaultSource) (cls : FaultClass) : (s.raise c src cls).builder = s.builder := rfl

/-! ### `momentary` -/

@[simp] theorem momentary_pending (s : State) (c : FaultCode) (src : FaultSource) (cls : FaultClass) : (s.momentary c src cls).pending = s.pending := rfl
@[simp] theorem momentary_clock (s : State) (c : FaultCode) (src : FaultSource) (cls : FaultClass) : (s.momentary c src cls).clock = s.clock := rfl
@[simp] theorem momentary_us (s : State) (c : FaultCode) (src : FaultSource) (cls : FaultClass) : (s.momentary c src cls).us = s.us := rfl
@[simp] theorem momentary_draws (s : State) (c : FaultCode) (src : FaultSource) (cls : FaultClass) : (s.momentary c src cls).draws = s.draws := rfl
@[simp] theorem momentary_pins (s : State) (c : FaultCode) (src : FaultSource) (cls : FaultClass) : (s.momentary c src cls).pins = s.pins := rfl
@[simp] theorem momentary_store (s : State) (c : FaultCode) (src : FaultSource) (cls : FaultClass) : (s.momentary c src cls).store = s.store := rfl
@[simp] theorem momentary_lif (s : State) (c : FaultCode) (src : FaultSource) (cls : FaultClass) : (s.momentary c src cls).lif = s.lif := rfl
@[simp] theorem momentary_dps (s : State) (c : FaultCode) (src : FaultSource) (cls : FaultClass) : (s.momentary c src cls).dps = s.dps := rfl
@[simp] theorem momentary_heads (s : State) (c : FaultCode) (src : FaultSource) (cls : FaultClass) : (s.momentary c src cls).heads = s.heads := rfl
@[simp] theorem momentary_sects (s : State) (c : FaultCode) (src : FaultSource) (cls : FaultClass) : (s.momentary c src cls).sects = s.sects := rfl
@[simp] theorem momentary_demands (s : State) (c : FaultCode) (src : FaultSource) (cls : FaultClass) : (s.momentary c src cls).demands = s.demands := rfl
@[simp] theorem momentary_crossing (s : State) (c : FaultCode) (src : FaultSource) (cls : FaultClass) : (s.momentary c src cls).crossing = s.crossing := rfl
@[simp] theorem momentary_authority (s : State) (c : FaultCode) (src : FaultSource) (cls : FaultClass) : (s.momentary c src cls).authority = s.authority := rfl
@[simp] theorem momentary_lights (s : State) (c : FaultCode) (src : FaultSource) (cls : FaultClass) : (s.momentary c src cls).lights = s.lights := rfl
@[simp] theorem momentary_barrier (s : State) (c : FaultCode) (src : FaultSource) (cls : FaultClass) : (s.momentary c src cls).barrier = s.barrier := rfl
@[simp] theorem momentary_builder (s : State) (c : FaultCode) (src : FaultSource) (cls : FaultClass) : (s.momentary c src cls).builder = s.builder := rfl

/-! ### `clear` -/

@[simp] theorem clear_pending (s : State) (c : FaultCode) (src : FaultSource) : (s.clear c src).pending = s.pending := rfl
@[simp] theorem clear_clock (s : State) (c : FaultCode) (src : FaultSource) : (s.clear c src).clock = s.clock := rfl
@[simp] theorem clear_us (s : State) (c : FaultCode) (src : FaultSource) : (s.clear c src).us = s.us := rfl
@[simp] theorem clear_draws (s : State) (c : FaultCode) (src : FaultSource) : (s.clear c src).draws = s.draws := rfl
@[simp] theorem clear_pins (s : State) (c : FaultCode) (src : FaultSource) : (s.clear c src).pins = s.pins := rfl
@[simp] theorem clear_store (s : State) (c : FaultCode) (src : FaultSource) : (s.clear c src).store = s.store := rfl
@[simp] theorem clear_lif (s : State) (c : FaultCode) (src : FaultSource) : (s.clear c src).lif = s.lif := rfl
@[simp] theorem clear_dps (s : State) (c : FaultCode) (src : FaultSource) : (s.clear c src).dps = s.dps := rfl
@[simp] theorem clear_heads (s : State) (c : FaultCode) (src : FaultSource) : (s.clear c src).heads = s.heads := rfl
@[simp] theorem clear_sects (s : State) (c : FaultCode) (src : FaultSource) : (s.clear c src).sects = s.sects := rfl
@[simp] theorem clear_demands (s : State) (c : FaultCode) (src : FaultSource) : (s.clear c src).demands = s.demands := rfl
@[simp] theorem clear_crossing (s : State) (c : FaultCode) (src : FaultSource) : (s.clear c src).crossing = s.crossing := rfl
@[simp] theorem clear_authority (s : State) (c : FaultCode) (src : FaultSource) : (s.clear c src).authority = s.authority := rfl
@[simp] theorem clear_lights (s : State) (c : FaultCode) (src : FaultSource) : (s.clear c src).lights = s.lights := rfl
@[simp] theorem clear_barrier (s : State) (c : FaultCode) (src : FaultSource) : (s.clear c src).barrier = s.barrier := rfl
@[simp] theorem clear_builder (s : State) (c : FaultCode) (src : FaultSource) : (s.clear c src).builder = s.builder := rfl

/-! ### `onStandby` -/

@[simp] theorem onStandby_pending (s : State) (f : Bank → Bank) : (s.onStandby f).pending = s.pending := rfl
@[simp] theorem onStandby_clock (s : State) (f : Bank → Bank) : (s.onStandby f).clock = s.clock := rfl
@[simp] theorem onStandby_us (s : State) (f : Bank → Bank) : (s.onStandby f).us = s.us := rfl
@[simp] theorem onStandby_draws (s : State) (f : Bank → Bank) : (s.onStandby f).draws = s.draws := rfl
@[simp] theorem onStandby_pins (s : State) (f : Bank → Bank) : (s.onStandby f).pins = s.pins := rfl
@[simp] theorem onStandby_lif (s : State) (f : Bank → Bank) : (s.onStandby f).lif = s.lif := rfl
@[simp] theorem onStandby_dps (s : State) (f : Bank → Bank) : (s.onStandby f).dps = s.dps := rfl
@[simp] theorem onStandby_heads (s : State) (f : Bank → Bank) : (s.onStandby f).heads = s.heads := rfl
@[simp] theorem onStandby_sects (s : State) (f : Bank → Bank) : (s.onStandby f).sects = s.sects := rfl
@[simp] theorem onStandby_demands (s : State) (f : Bank → Bank) : (s.onStandby f).demands = s.demands := rfl
@[simp] theorem onStandby_crossing (s : State) (f : Bank → Bank) : (s.onStandby f).crossing = s.crossing := rfl
@[simp] theorem onStandby_authority (s : State) (f : Bank → Bank) : (s.onStandby f).authority = s.authority := rfl
@[simp] theorem onStandby_lights (s : State) (f : Bank → Bank) : (s.onStandby f).lights = s.lights := rfl
@[simp] theorem onStandby_barrier (s : State) (f : Bank → Bank) : (s.onStandby f).barrier = s.barrier := rfl
@[simp] theorem onStandby_faults (s : State) (f : Bank → Bank) : (s.onStandby f).faults = s.faults := rfl
@[simp] theorem onStandby_builder (s : State) (f : Bank → Bank) : (s.onStandby f).builder = s.builder := rfl

/-! ### `atMicros` -/

@[simp] theorem atMicros_pending (s : State) (n : Nat) : (s.atMicros n).pending = s.pending := rfl
@[simp] theorem atMicros_clock (s : State) (n : Nat) : (s.atMicros n).clock = s.clock := rfl
@[simp] theorem atMicros_draws (s : State) (n : Nat) : (s.atMicros n).draws = s.draws := rfl
@[simp] theorem atMicros_pins (s : State) (n : Nat) : (s.atMicros n).pins = s.pins := rfl
@[simp] theorem atMicros_store (s : State) (n : Nat) : (s.atMicros n).store = s.store := rfl
@[simp] theorem atMicros_lif (s : State) (n : Nat) : (s.atMicros n).lif = s.lif := rfl
@[simp] theorem atMicros_dps (s : State) (n : Nat) : (s.atMicros n).dps = s.dps := rfl
@[simp] theorem atMicros_heads (s : State) (n : Nat) : (s.atMicros n).heads = s.heads := rfl
@[simp] theorem atMicros_sects (s : State) (n : Nat) : (s.atMicros n).sects = s.sects := rfl
@[simp] theorem atMicros_demands (s : State) (n : Nat) : (s.atMicros n).demands = s.demands := rfl
@[simp] theorem atMicros_crossing (s : State) (n : Nat) : (s.atMicros n).crossing = s.crossing := rfl
@[simp] theorem atMicros_authority (s : State) (n : Nat) : (s.atMicros n).authority = s.authority := rfl
@[simp] theorem atMicros_lights (s : State) (n : Nat) : (s.atMicros n).lights = s.lights := rfl
@[simp] theorem atMicros_barrier (s : State) (n : Nat) : (s.atMicros n).barrier = s.barrier := rfl
@[simp] theorem atMicros_faults (s : State) (n : Nat) : (s.atMicros n).faults = s.faults := rfl
@[simp] theorem atMicros_builder (s : State) (n : Nat) : (s.atMicros n).builder = s.builder := rfl

/-! ### `hear` -/

@[simp] theorem hear_pending (s : State) : (s.hear).pending = s.pending := rfl
@[simp] theorem hear_clock (s : State) : (s.hear).clock = s.clock := rfl
@[simp] theorem hear_us (s : State) : (s.hear).us = s.us := rfl
@[simp] theorem hear_draws (s : State) : (s.hear).draws = s.draws := rfl
@[simp] theorem hear_pins (s : State) : (s.hear).pins = s.pins := rfl
@[simp] theorem hear_store (s : State) : (s.hear).store = s.store := rfl
@[simp] theorem hear_lif (s : State) : (s.hear).lif = s.lif := rfl
@[simp] theorem hear_dps (s : State) : (s.hear).dps = s.dps := rfl
@[simp] theorem hear_heads (s : State) : (s.hear).heads = s.heads := rfl
@[simp] theorem hear_sects (s : State) : (s.hear).sects = s.sects := rfl
@[simp] theorem hear_demands (s : State) : (s.hear).demands = s.demands := rfl
@[simp] theorem hear_crossing (s : State) : (s.hear).crossing = s.crossing := rfl
@[simp] theorem hear_authority (s : State) : (s.hear).authority = s.authority := rfl
@[simp] theorem hear_lights (s : State) : (s.hear).lights = s.lights := rfl
@[simp] theorem hear_barrier (s : State) : (s.hear).barrier = s.barrier := rfl
@[simp] theorem hear_builder (s : State) : (s.hear).builder = s.builder := rfl

/-! ### `lightCommand` -/

@[simp] theorem lightCommand_pending (s : State) (c : LightCommand) : (s.lightCommand c).pending = s.pending := rfl
@[simp] theorem lightCommand_clock (s : State) (c : LightCommand) : (s.lightCommand c).clock = s.clock := rfl
@[simp] theorem lightCommand_us (s : State) (c : LightCommand) : (s.lightCommand c).us = s.us := rfl
@[simp] theorem lightCommand_draws (s : State) (c : LightCommand) : (s.lightCommand c).draws = s.draws := rfl
@[simp] theorem lightCommand_pins (s : State) (c : LightCommand) : (s.lightCommand c).pins = s.pins := rfl
@[simp] theorem lightCommand_store (s : State) (c : LightCommand) : (s.lightCommand c).store = s.store := rfl
@[simp] theorem lightCommand_lif (s : State) (c : LightCommand) : (s.lightCommand c).lif = s.lif := rfl
@[simp] theorem lightCommand_dps (s : State) (c : LightCommand) : (s.lightCommand c).dps = s.dps := rfl
@[simp] theorem lightCommand_heads (s : State) (c : LightCommand) : (s.lightCommand c).heads = s.heads := rfl
@[simp] theorem lightCommand_sects (s : State) (c : LightCommand) : (s.lightCommand c).sects = s.sects := rfl
@[simp] theorem lightCommand_demands (s : State) (c : LightCommand) : (s.lightCommand c).demands = s.demands := rfl
@[simp] theorem lightCommand_crossing (s : State) (c : LightCommand) : (s.lightCommand c).crossing = s.crossing := rfl
@[simp] theorem lightCommand_authority (s : State) (c : LightCommand) : (s.lightCommand c).authority = s.authority := rfl
@[simp] theorem lightCommand_barrier (s : State) (c : LightCommand) : (s.lightCommand c).barrier = s.barrier := rfl
@[simp] theorem lightCommand_faults (s : State) (c : LightCommand) : (s.lightCommand c).faults = s.faults := rfl
@[simp] theorem lightCommand_builder (s : State) (c : LightCommand) : (s.lightCommand c).builder = s.builder := rfl

/-! ### `audibleCommand` -/

@[simp] theorem audibleCommand_pending (s : State) (on : Bool) : (s.audibleCommand on).pending = s.pending := rfl
@[simp] theorem audibleCommand_clock (s : State) (on : Bool) : (s.audibleCommand on).clock = s.clock := rfl
@[simp] theorem audibleCommand_us (s : State) (on : Bool) : (s.audibleCommand on).us = s.us := rfl
@[simp] theorem audibleCommand_draws (s : State) (on : Bool) : (s.audibleCommand on).draws = s.draws := rfl
@[simp] theorem audibleCommand_pins (s : State) (on : Bool) : (s.audibleCommand on).pins = s.pins := rfl
@[simp] theorem audibleCommand_store (s : State) (on : Bool) : (s.audibleCommand on).store = s.store := rfl
@[simp] theorem audibleCommand_lif (s : State) (on : Bool) : (s.audibleCommand on).lif = s.lif := rfl
@[simp] theorem audibleCommand_dps (s : State) (on : Bool) : (s.audibleCommand on).dps = s.dps := rfl
@[simp] theorem audibleCommand_heads (s : State) (on : Bool) : (s.audibleCommand on).heads = s.heads := rfl
@[simp] theorem audibleCommand_sects (s : State) (on : Bool) : (s.audibleCommand on).sects = s.sects := rfl
@[simp] theorem audibleCommand_demands (s : State) (on : Bool) : (s.audibleCommand on).demands = s.demands := rfl
@[simp] theorem audibleCommand_crossing (s : State) (on : Bool) : (s.audibleCommand on).crossing = s.crossing := rfl
@[simp] theorem audibleCommand_authority (s : State) (on : Bool) : (s.audibleCommand on).authority = s.authority := rfl
@[simp] theorem audibleCommand_barrier (s : State) (on : Bool) : (s.audibleCommand on).barrier = s.barrier := rfl
@[simp] theorem audibleCommand_faults (s : State) (on : Bool) : (s.audibleCommand on).faults = s.faults := rfl
@[simp] theorem audibleCommand_builder (s : State) (on : Bool) : (s.audibleCommand on).builder = s.builder := rfl

/-! ### `newRound` -/

@[simp] theorem newRound_pending (s : State) : (s.newRound).pending = s.pending := rfl
@[simp] theorem newRound_clock (s : State) : (s.newRound).clock = s.clock := rfl
@[simp] theorem newRound_us (s : State) : (s.newRound).us = s.us := rfl
@[simp] theorem newRound_draws (s : State) : (s.newRound).draws = s.draws := rfl
@[simp] theorem newRound_pins (s : State) : (s.newRound).pins = s.pins := rfl
@[simp] theorem newRound_store (s : State) : (s.newRound).store = s.store := rfl
@[simp] theorem newRound_dps (s : State) : (s.newRound).dps = s.dps := rfl
@[simp] theorem newRound_heads (s : State) : (s.newRound).heads = s.heads := rfl
@[simp] theorem newRound_sects (s : State) : (s.newRound).sects = s.sects := rfl
@[simp] theorem newRound_demands (s : State) : (s.newRound).demands = s.demands := rfl
@[simp] theorem newRound_crossing (s : State) : (s.newRound).crossing = s.crossing := rfl
@[simp] theorem newRound_authority (s : State) : (s.newRound).authority = s.authority := rfl
@[simp] theorem newRound_lights (s : State) : (s.newRound).lights = s.lights := rfl
@[simp] theorem newRound_barrier (s : State) : (s.newRound).barrier = s.barrier := rfl
@[simp] theorem newRound_faults (s : State) : (s.newRound).faults = s.faults := rfl
@[simp] theorem newRound_builder (s : State) : (s.newRound).builder = s.builder := rfl

/-! ### `setLights` -/

@[simp] theorem setLights_pending (s : State) (l : Lights) : (s.setLights l).pending = s.pending := rfl
@[simp] theorem setLights_clock (s : State) (l : Lights) : (s.setLights l).clock = s.clock := rfl
@[simp] theorem setLights_us (s : State) (l : Lights) : (s.setLights l).us = s.us := rfl
@[simp] theorem setLights_draws (s : State) (l : Lights) : (s.setLights l).draws = s.draws := rfl
@[simp] theorem setLights_pins (s : State) (l : Lights) : (s.setLights l).pins = s.pins := rfl
@[simp] theorem setLights_store (s : State) (l : Lights) : (s.setLights l).store = s.store := rfl
@[simp] theorem setLights_lif (s : State) (l : Lights) : (s.setLights l).lif = s.lif := rfl
@[simp] theorem setLights_dps (s : State) (l : Lights) : (s.setLights l).dps = s.dps := rfl
@[simp] theorem setLights_heads (s : State) (l : Lights) : (s.setLights l).heads = s.heads := rfl
@[simp] theorem setLights_sects (s : State) (l : Lights) : (s.setLights l).sects = s.sects := rfl
@[simp] theorem setLights_demands (s : State) (l : Lights) : (s.setLights l).demands = s.demands := rfl
@[simp] theorem setLights_crossing (s : State) (l : Lights) : (s.setLights l).crossing = s.crossing := rfl
@[simp] theorem setLights_authority (s : State) (l : Lights) : (s.setLights l).authority = s.authority := rfl
@[simp] theorem setLights_barrier (s : State) (l : Lights) : (s.setLights l).barrier = s.barrier := rfl
@[simp] theorem setLights_builder (s : State) (l : Lights) : (s.setLights l).builder = s.builder := rfl

/-! ### `onPort` -/

@[simp] theorem onPort_pending (s : State) (p : Port) (f : PortRec → PortRec) : (s.onPort p f).pending = s.pending := by cases p <;> rfl
@[simp] theorem onPort_clock (s : State) (p : Port) (f : PortRec → PortRec) : (s.onPort p f).clock = s.clock := by cases p <;> rfl
@[simp] theorem onPort_us (s : State) (p : Port) (f : PortRec → PortRec) : (s.onPort p f).us = s.us := by cases p <;> rfl
@[simp] theorem onPort_draws (s : State) (p : Port) (f : PortRec → PortRec) : (s.onPort p f).draws = s.draws := by cases p <;> rfl
@[simp] theorem onPort_pins (s : State) (p : Port) (f : PortRec → PortRec) : (s.onPort p f).pins = s.pins := by cases p <;> rfl
@[simp] theorem onPort_store (s : State) (p : Port) (f : PortRec → PortRec) : (s.onPort p f).store = s.store := by cases p <;> rfl
@[simp] theorem onPort_dps (s : State) (p : Port) (f : PortRec → PortRec) : (s.onPort p f).dps = s.dps := by cases p <;> rfl
@[simp] theorem onPort_heads (s : State) (p : Port) (f : PortRec → PortRec) : (s.onPort p f).heads = s.heads := by cases p <;> rfl
@[simp] theorem onPort_sects (s : State) (p : Port) (f : PortRec → PortRec) : (s.onPort p f).sects = s.sects := by cases p <;> rfl
@[simp] theorem onPort_demands (s : State) (p : Port) (f : PortRec → PortRec) : (s.onPort p f).demands = s.demands := by cases p <;> rfl
@[simp] theorem onPort_crossing (s : State) (p : Port) (f : PortRec → PortRec) : (s.onPort p f).crossing = s.crossing := by cases p <;> rfl
@[simp] theorem onPort_authority (s : State) (p : Port) (f : PortRec → PortRec) : (s.onPort p f).authority = s.authority := by cases p <;> rfl
@[simp] theorem onPort_lights (s : State) (p : Port) (f : PortRec → PortRec) : (s.onPort p f).lights = s.lights := by cases p <;> rfl
@[simp] theorem onPort_barrier (s : State) (p : Port) (f : PortRec → PortRec) : (s.onPort p f).barrier = s.barrier := by cases p <;> rfl
@[simp] theorem onPort_faults (s : State) (p : Port) (f : PortRec → PortRec) : (s.onPort p f).faults = s.faults := by cases p <;> rfl
@[simp] theorem onPort_builder (s : State) (p : Port) (f : PortRec → PortRec) : (s.onPort p f).builder = s.builder := by cases p <;> rfl

/-! ### `count` -/

@[simp] theorem count_pending (s : State) (p : Port) (f : Counters → Counters) : (s.count p f).pending = s.pending := by cases p <;> rfl
@[simp] theorem count_clock (s : State) (p : Port) (f : Counters → Counters) : (s.count p f).clock = s.clock := by cases p <;> rfl
@[simp] theorem count_us (s : State) (p : Port) (f : Counters → Counters) : (s.count p f).us = s.us := by cases p <;> rfl
@[simp] theorem count_draws (s : State) (p : Port) (f : Counters → Counters) : (s.count p f).draws = s.draws := by cases p <;> rfl
@[simp] theorem count_pins (s : State) (p : Port) (f : Counters → Counters) : (s.count p f).pins = s.pins := by cases p <;> rfl
@[simp] theorem count_store (s : State) (p : Port) (f : Counters → Counters) : (s.count p f).store = s.store := by cases p <;> rfl
@[simp] theorem count_dps (s : State) (p : Port) (f : Counters → Counters) : (s.count p f).dps = s.dps := by cases p <;> rfl
@[simp] theorem count_heads (s : State) (p : Port) (f : Counters → Counters) : (s.count p f).heads = s.heads := by cases p <;> rfl
@[simp] theorem count_sects (s : State) (p : Port) (f : Counters → Counters) : (s.count p f).sects = s.sects := by cases p <;> rfl
@[simp] theorem count_demands (s : State) (p : Port) (f : Counters → Counters) : (s.count p f).demands = s.demands := by cases p <;> rfl
@[simp] theorem count_crossing (s : State) (p : Port) (f : Counters → Counters) : (s.count p f).crossing = s.crossing := by cases p <;> rfl
@[simp] theorem count_authority (s : State) (p : Port) (f : Counters → Counters) : (s.count p f).authority = s.authority := by cases p <;> rfl
@[simp] theorem count_lights (s : State) (p : Port) (f : Counters → Counters) : (s.count p f).lights = s.lights := by cases p <;> rfl
@[simp] theorem count_barrier (s : State) (p : Port) (f : Counters → Counters) : (s.count p f).barrier = s.barrier := by cases p <;> rfl
@[simp] theorem count_faults (s : State) (p : Port) (f : Counters → Counters) : (s.count p f).faults = s.faults := by cases p <;> rfl
@[simp] theorem count_builder (s : State) (p : Port) (f : Counters → Counters) : (s.count p f).builder = s.builder := by cases p <;> rfl

/-! ### `owe` -/

@[simp] theorem owe_pending (s : State) (h : Fin 8) : (s.owe h).pending = s.pending := rfl
@[simp] theorem owe_clock (s : State) (h : Fin 8) : (s.owe h).clock = s.clock := rfl
@[simp] theorem owe_us (s : State) (h : Fin 8) : (s.owe h).us = s.us := rfl
@[simp] theorem owe_draws (s : State) (h : Fin 8) : (s.owe h).draws = s.draws := rfl
@[simp] theorem owe_pins (s : State) (h : Fin 8) : (s.owe h).pins = s.pins := rfl
@[simp] theorem owe_store (s : State) (h : Fin 8) : (s.owe h).store = s.store := rfl
@[simp] theorem owe_lif (s : State) (h : Fin 8) : (s.owe h).lif = s.lif := rfl
@[simp] theorem owe_dps (s : State) (h : Fin 8) : (s.owe h).dps = s.dps := rfl
@[simp] theorem owe_sects (s : State) (h : Fin 8) : (s.owe h).sects = s.sects := rfl
@[simp] theorem owe_demands (s : State) (h : Fin 8) : (s.owe h).demands = s.demands := rfl
@[simp] theorem owe_crossing (s : State) (h : Fin 8) : (s.owe h).crossing = s.crossing := rfl
@[simp] theorem owe_authority (s : State) (h : Fin 8) : (s.owe h).authority = s.authority := rfl
@[simp] theorem owe_lights (s : State) (h : Fin 8) : (s.owe h).lights = s.lights := rfl
@[simp] theorem owe_barrier (s : State) (h : Fin 8) : (s.owe h).barrier = s.barrier := rfl
@[simp] theorem owe_faults (s : State) (h : Fin 8) : (s.owe h).faults = s.faults := rfl
@[simp] theorem owe_builder (s : State) (h : Fin 8) : (s.owe h).builder = s.builder := rfl

/-! ### `clearRestarted` -/

@[simp] theorem clearRestarted_pending (s : State) : s.clearRestarted.pending = s.pending := rfl
@[simp] theorem clearRestarted_clock (s : State) : s.clearRestarted.clock = s.clock := rfl
@[simp] theorem clearRestarted_us (s : State) : s.clearRestarted.us = s.us := rfl
@[simp] theorem clearRestarted_draws (s : State) : s.clearRestarted.draws = s.draws := rfl
@[simp] theorem clearRestarted_pins (s : State) : s.clearRestarted.pins = s.pins := rfl
@[simp] theorem clearRestarted_store (s : State) : s.clearRestarted.store = s.store := rfl
@[simp] theorem clearRestarted_lif (s : State) : s.clearRestarted.lif = s.lif := rfl
@[simp] theorem clearRestarted_dps (s : State) : s.clearRestarted.dps = s.dps := rfl
@[simp] theorem clearRestarted_sects (s : State) : s.clearRestarted.sects = s.sects := rfl
@[simp] theorem clearRestarted_demands (s : State) : s.clearRestarted.demands = s.demands := rfl
@[simp] theorem clearRestarted_crossing (s : State) : s.clearRestarted.crossing = s.crossing := rfl
@[simp] theorem clearRestarted_authority (s : State) : s.clearRestarted.authority = s.authority := rfl
@[simp] theorem clearRestarted_lights (s : State) : s.clearRestarted.lights = s.lights := rfl
@[simp] theorem clearRestarted_barrier (s : State) : s.clearRestarted.barrier = s.barrier := rfl
@[simp] theorem clearRestarted_faults (s : State) : s.clearRestarted.faults = s.faults := rfl
@[simp] theorem clearRestarted_builder (s : State) : s.clearRestarted.builder = s.builder := rfl

/-! ### The fields that change -/

@[simp] theorem setDp_dps (s : State) (i : Nat) (r : DpRec) : (s.setDp i r).dps = modifyAt s.dps i fun _ => r := rfl
@[simp] theorem onHead_heads (s : State) (h : Fin 8) (f : HeadRec → HeadRec) : (s.onHead h f).heads = s.heads.set h (f s.heads[h]) := rfl
@[simp] theorem setMachine_machines (s : State) (i : Fin 4) (r : MachineRec) : (s.setMachine i r).barrier.machines = s.barrier.machines.set i r := rfl
@[simp] theorem setMachine_zone (s : State) (i : Fin 4) (r : MachineRec) : (s.setMachine i r).barrier.zone = s.barrier.zone := rfl
@[simp] theorem setZone_zone (s : State) (z : ZoneRec) : (s.setZone z).barrier.zone = z := rfl
@[simp] theorem setZone_machines (s : State) (z : ZoneRec) : (s.setZone z).barrier.machines = s.barrier.machines := rfl
@[simp] theorem raise_faults (s : State) (c : FaultCode) (src : FaultSource) (cls : FaultClass) :
    (s.raise c src cls).faults = s.faults.raise s.clock s.tDrain c src cls := rfl
@[simp] theorem momentary_faults (s : State) (c : FaultCode) (src : FaultSource) (cls : FaultClass) :
    (s.momentary c src cls).faults = s.faults.moment s.clock s.tDrain c src cls := rfl
@[simp] theorem clear_faults (s : State) (c : FaultCode) (src : FaultSource) :
    (s.clear c src).faults = s.faults.clear s.clock c src := rfl
@[simp] theorem atMicros_us (s : State) (n : Nat) : (s.atMicros n).us = max s.us n := rfl
@[simp] theorem hear_faults (s : State) : s.hear.faults = s.faults.boxHeard := rfl
@[simp] theorem setLights_lights (s : State) (l : Lights) : (s.setLights l).lights = l := rfl
@[simp] theorem lightCommand_lights (s : State) (c : LightCommand) :
    (s.lightCommand c).lights = s.lights.handed s.clock s.flashHalf s.groupPresent c := rfl
@[simp] theorem audibleCommand_lights (s : State) (on : Bool) : (s.audibleCommand on).lights = { s.lights with audible := on } := rfl
@[simp] theorem port_onPort (s : State) (p : Port) (f : PortRec → PortRec) : (s.onPort p f).port p = f (s.port p) := by cases p <;> rfl
@[simp] theorem port_count (s : State) (p : Port) (f : Counters → Counters) :
    (s.count p f).port p = { s.port p with counters := f (s.port p).counters } := by cases p <;> rfl
@[simp] theorem onPort_station (s : State) (p : Port) (f : PortRec → PortRec) : (s.onPort p f).lif.station = s.lif.station := by cases p <;> rfl
@[simp] theorem count_station (s : State) (p : Port) (f : Counters → Counters) : (s.count p f).lif.station = s.lif.station := by cases p <;> rfl
@[simp] theorem owe_heads (s : State) (h : Fin 8) : (s.owe h).heads = s.heads.set h { s.heads[h] with owed := true } := rfl
@[simp] theorem clearRestarted_head (s : State) (h : Fin 8) :
    s.clearRestarted.heads[h] = { s.heads[h] with restarted := false, owed := s.heads[h].owed || s.named h } := by
  simp [State.clearRestarted]
@[simp] theorem channel_onChannel (r : HeadRec) (c : Channel) (f : ChannelRec → ChannelRec) :
    (r.onChannel c f).channel c = f (r.channel c) := by cases c <;> rfl
@[simp] theorem channel_onChannel_other (r : HeadRec) (c : Channel) (f : ChannelRec → ChannelRec) :
    (r.onChannel c f).channel (otherChannel c) = r.channel (otherChannel c) := by cases c <;> rfl

/-! ### The transmit pair (R28, R31, R44) -/

theorem output_of_isolated {r : PortRec} (h : r.state = .isolated) : r.output = .nothing := by simp [PortRec.output, h]
theorem output_of_idle {r : PortRec} (h : r.state ≠ .isolated) (n : r.sending = none) : r.output = .fill fillByte := by
  simp [PortRec.output, h, n]
theorem output_of_sending {r : PortRec} {x : Sending} (h : r.state ≠ .isolated) (n : r.sending = some x) :
    r.output = .telegram x.frame := by simp [PortRec.output, h, n]
theorem complementByte_eq : complementByte = ~~~fillByte := rfl

/-! ### The commands of one moment (R1, R4) -/

theorem sameMoment_nil {s : State} (h : s.pending = []) : s.sameMoment = [] := by simp [State.sameMoment, h]
theorem sameMoment_of_start {s : State} {l : List Instr} (h : s.pending = .start :: l) : s.sameMoment = [] := by
  simp [State.sameMoment, h]
theorem sameMoment_congr {s t : State} (h : t.pending = s.pending) : t.sameMoment = s.sameMoment := by
  simp [State.sameMoment, h]
theorem sameMoment_cons {s : State} {c : Instr} {l : List Instr} (h : s.pending = c :: l) (n : c ≠ .start) :
    s.sameMoment = c :: State.sameMoment { s with pending := l } := by simp [State.sameMoment, h, n]
theorem headWaits_congr {s t : State} (h : t.pending = s.pending) (k : Fin 8) : t.headWaits k = s.headWaits k := by
  simp [State.headWaits, sameMoment_congr h]
/-- With a START next nothing of the head waits at this clock value (R72, log 37). -/
theorem headWaits_of_start {s : State} {l : List Instr} (h : s.pending = .start :: l) (k : Fin 8) : s.headWaits k = false := by
  simp [State.headWaits, sameMoment_of_start h]
theorem headWaits_cons {s : State} {c : Instr} {l : List Instr} (h : s.pending = c :: l) (n : c ≠ .start) (k : Fin 8) :
    s.headWaits k = (changesHead k c || State.headWaits { s with pending := l } k) := by
  simp [State.headWaits, sameMoment_cons h n]

/-! ### What is read of the plan in force depends on the Plan Store alone -/

theorem par_congr {s t : State} (h : t.store = s.store) {α : Type} (a : α) (f : Plan → α) : t.par a f = s.par a f := by
  simp [State.par, h]
theorem tDrain_congr {s t : State} (h : t.store = s.store) : t.tDrain = s.tDrain := par_congr h _ _
theorem machinePresent_congr {s t : State} (h : t.store = s.store) (i : Fin 4) : t.machinePresent i = s.machinePresent i :=
  par_congr h _ _
theorem groupPresent_congr {s t : State} (h : t.store = s.store) (g : Fin 4) : t.groupPresent g = s.groupPresent g :=
  par_congr h _ _
theorem role_congr {s t : State} (h : t.store = s.store) (i : Fin 4) : t.role i = s.role i := par_congr h _ _

end Sys2Proof.Machine
end

