-- ==== Sys2Proof/Laws/Control.lean ====
section
/-! SUPPORT. What the operations of the Sequence Controller, the Authority Arbiter, the Light Driver, the Barrier Drive Unit,
the Approach Unit and the Section Table can change. `ControlOnly s t` says that `t` is `s` but for the crossing, the
authority, the lights, the barrier and what the Fault Table was told; `TrackOnly s t` adds the sections and the demands. -/

namespace Sys2Proof.Machine

open Sys2Proof

/-! ### The Fault Table under reports -/

/-- `u` follows from `t` by raises, momentary raises and clears alone. -/
inductive FaultTable.Told : FaultTable → FaultTable → Prop where
  | refl (t : FaultTable) : FaultTable.Told t t
  | step {t u : FaultTable} (now : Time) (len : Nat) (a : FaultAct) (h : FaultTable.Told t u) :
      FaultTable.Told t (FaultTable.act now len u a)

theorem FaultTable.Told.trans {t u v : FaultTable} (h : t.Told u) (k : u.Told v) : t.Told v := by
  induction k with
  | refl => exact h
  | step now len a _ ih => exact .step now len a ih

theorem FaultTable.Told.foldl (now : Time) (len : Nat) (acts : List FaultAct) (t : FaultTable) :
    t.Told (acts.foldl (FaultTable.act now len) t) := by
  induction acts generalizing t with
  | nil => exact .refl t
  | cons a l ih => exact FaultTable.Told.trans (.step now len a (.refl t)) (ih _)

/-- A property that raises, momentary raises and clears keep holds of what was told. -/
theorem FaultTable.Told.keeps {P : FaultTable → Prop}
    (hk : ∀ t now len a, P t → P (FaultTable.act now len t a)) {t u : FaultTable} (h : t.Told u) (ht : P t) : P u := by
  induction h with
  | refl => exact ht
  | step now len a _ ih => exact hk _ now len a ih

/-! ### The relations -/

/-- What a report changes: the Fault Table, told. -/
def FaultsOnly (s t : State) : Prop := ∃ f, s.faults.Told f ∧ t = { s with faults := f }

/-- What the control blocks change. -/
def ControlOnly (s t : State) : Prop :=
  ∃ f c a l b, s.faults.Told f ∧
    t = { s with faults := f, crossing := c, authority := a, lights := l, barrier := b }

/-- What the control blocks, the Approach Unit and the Section Table change. -/
def TrackOnly (s t : State) : Prop :=
  ∃ f c a l b d x, s.faults.Told f ∧
    t = { s with faults := f, crossing := c, authority := a, lights := l, barrier := b, demands := d, sects := x }

theorem ControlOnly.refl (s : State) : ControlOnly s s := ⟨_, _, _, _, _, .refl _, rfl⟩

theorem ControlOnly.trans {s t u : State} (h : ControlOnly s t) (k : ControlOnly t u) : ControlOnly s u := by
  obtain ⟨f, c, a, l, b, hf, rfl⟩ := h
  obtain ⟨f', c', a', l', b', hf', rfl⟩ := k
  exact ⟨f', c', a', l', b', hf.trans hf', rfl⟩

theorem TrackOnly.refl (s : State) : TrackOnly s s := ⟨_, _, _, _, _, _, _, .refl _, rfl⟩

theorem TrackOnly.trans {s t u : State} (h : TrackOnly s t) (k : TrackOnly t u) : TrackOnly s u := by
  obtain ⟨f, c, a, l, b, d, x, hf, rfl⟩ := h
  obtain ⟨f', c', a', l', b', d', x', hf', rfl⟩ := k
  exact ⟨f', c', a', l', b', d', x', hf.trans hf', rfl⟩

theorem ControlOnly.track {s t : State} (h : ControlOnly s t) : TrackOnly s t := by
  obtain ⟨f, c, a, l, b, hf, rfl⟩ := h
  exact ⟨f, c, a, l, b, s.demands, s.sects, hf, rfl⟩

theorem FaultsOnly.control {s t : State} (h : FaultsOnly s t) : ControlOnly s t := by
  obtain ⟨f, hf, rfl⟩ := h
  exact ⟨f, _, _, _, _, hf, rfl⟩

theorem ControlOnly.foldl {α : Type} (f : State → α → State) (h : ∀ s x, ControlOnly s (f s x)) (l : List α) (s : State) :
    ControlOnly s (l.foldl f s) := by
  induction l generalizing s with
  | nil => exact .refl s
  | cons x l ih => exact (h s x).trans (ih _)

/-- What control blocks leave as it was. -/
theorem ControlOnly.keeps {s t : State} (h : ControlOnly s t) :
    t.pending = s.pending ∧ t.clock = s.clock ∧ t.us = s.us ∧ t.draws = s.draws ∧ t.pins = s.pins ∧ t.store = s.store ∧
      t.lif = s.lif ∧ t.dps = s.dps ∧ t.heads = s.heads ∧ t.sects = s.sects ∧ t.demands = s.demands ∧
      t.builder = s.builder := by
  obtain ⟨f, c, a, l, b, _, rfl⟩ := h
  exact ⟨rfl, rfl, rfl, rfl, rfl, rfl, rfl, rfl, rfl, rfl, rfl, rfl⟩

/-- What control blocks, demands and sections leave as it was. -/
theorem TrackOnly.keeps {s t : State} (h : TrackOnly s t) :
    t.pending = s.pending ∧ t.clock = s.clock ∧ t.us = s.us ∧ t.draws = s.draws ∧ t.pins = s.pins ∧ t.store = s.store ∧
      t.lif = s.lif ∧ t.dps = s.dps ∧ t.heads = s.heads ∧ t.builder = s.builder := by
  obtain ⟨f, c, a, l, b, d, x, _, rfl⟩ := h
  exact ⟨rfl, rfl, rfl, rfl, rfl, rfl, rfl, rfl, rfl, rfl⟩

/-! ### Reports -/

theorem report_faultsOnly (s : State) (acts : List FaultAct) : FaultsOnly s (s.report acts) :=
  ⟨_, FaultTable.Told.foldl _ _ acts _, rfl⟩

theorem report_only (s : State) (acts : List FaultAct) : ControlOnly s (s.report acts) := (report_faultsOnly s acts).control

theorem raise_only (s : State) (c : FaultCode) (src : FaultSource) (cls : FaultClass) : ControlOnly s (s.raise c src cls) :=
  report_only s _

theorem momentary_only (s : State) (c : FaultCode) (src : FaultSource) (cls : FaultClass) :
    ControlOnly s (s.momentary c src cls) := report_only s _

theorem clear_only (s : State) (c : FaultCode) (src : FaultSource) : ControlOnly s (s.clear c src) := report_only s _

/-! ### Lights and barrier -/

theorem lightCommand_only (s : State) (c : LightCommand) : ControlOnly s (s.lightCommand c) :=
  ⟨_, _, _, _, _, .refl _, rfl⟩

theorem audibleCommand_only (s : State) (on : Bool) : ControlOnly s (s.audibleCommand on) := ⟨_, _, _, _, _, .refl _, rfl⟩

theorem setLights_only (s : State) (l : Lights) : ControlOnly s (s.setLights l) := by
  obtain ⟨f, hf, h⟩ := report_faultsOnly { s with lights := l } (lightActs s.lights l)
  exact ⟨f, _, _, _, _, hf, h⟩

theorem setMachine_only (s : State) (i : Fin 4) (r : MachineRec) : ControlOnly s (s.setMachine i r) :=
  ⟨_, _, _, _, _, .refl _, rfl⟩

theorem setZone_only (s : State) (z : ZoneRec) : ControlOnly s (s.setZone z) := ⟨_, _, _, _, _, .refl _, rfl⟩

theorem raiseMachineFailed_only (s : State) (i : Fin 4) : ControlOnly s (s.raiseMachineFailed i) := raise_only s _ _ _

/-- The crossing and the authority records may be replaced. -/
theorem records_only (s : State) (c : CrossingRec) (a : AuthorityRec) :
    ControlOnly s { s with crossing := c, authority := a } := ⟨_, _, _, _, _, .refl _, rfl⟩

theorem crossing_only (s : State) (c : CrossingRec) : ControlOnly s { s with crossing := c } :=
  ⟨_, _, _, _, _, .refl _, rfl⟩

theorem putMachine_only (s : State) (i : Fin 4) (r : MachineRec) : ControlOnly s (s.putMachine i r) := by
  unfold State.putMachine
  dsimp only
  split
  · exact (setMachine_only s i r).trans ((records_only _ _ _).trans (raiseMachineFailed_only _ i))
  · exact setMachine_only s i r

theorem sendMachine_only (s : State) (i : Fin 4) (d : Dir) : ControlOnly s (s.sendMachine i d) := by
  unfold State.sendMachine
  dsimp only
  split
  · exact .refl s
  · exact ⟨_, _, _, _, _, .refl _, rfl⟩

theorem beginWait_only (s : State) : ControlOnly s s.beginWait := by
  unfold State.beginWait
  dsimp only
  split
  · exact .refl s
  · exact setZone_only s _

theorem endWait_only (s : State) : ControlOnly s s.endWait := by
  unfold State.endWait
  dsimp only
  split
  · split
    · exact (setZone_only s _).trans (clear_only _ _ _)
    · exact setZone_only s _
  · exact .refl s

/-! ### Entries to crossing states -/

theorem enterRecord_only (s : State) (c : CrossingState) : ControlOnly s (s.enterRecord c) := by
  unfold State.enterRecord
  dsimp only
  cases c.light with
  | none => exact (crossing_only s _).trans (audibleCommand_only _ _)
  | some l => exact ((crossing_only s _).trans (lightCommand_only _ l)).trans (audibleCommand_only _ _)

theorem sendTo_only (c : CrossingState) (s : State) (i : Fin 4) : ControlOnly s (State.sendTo c s i) := by
  unfold State.sendTo
  split
  · split
    · exact .refl s
    · split
      · exact .refl s
      · exact sendMachine_only s i _
  · exact .refl s

theorem enter_only (s : State) (c : CrossingState) : ControlOnly s (s.enter c) :=
  (enterRecord_only s c).trans (ControlOnly.foldl _ (sendTo_only c) _ _)

theorem changeOwner_only (s : State) (w : Owner) : ControlOnly s (s.changeOwner w) :=
  (records_only s _ _).trans (momentary_only _ _ _ _)

theorem elect_only (s : State) : ControlOnly s s.elect := by
  unfold State.elect
  split
  · exact .refl s
  · split
    · exact .refl s
    · exact changeOwner_only s _

theorem enterAmber_only (s : State) : ControlOnly s s.enterAmber :=
  (enter_only s .amber).trans (records_only _ _ _)

theorem enterOpen_only (s : State) : ControlOnly s s.enterOpen := by
  unfold State.enterOpen
  dsimp only
  have h := (enter_only s .opened).trans ((crossing_only _ { (s.enter .opened).crossing with loweringStart := none }).trans
    (elect_only _))
  split
  · exact h
  · exact h.trans (enterAmber_only _)

theorem enterRaising_only (s : State) : ControlOnly s s.enterRaising := by
  unfold State.enterRaising
  dsimp only
  split
  · exact (enter_only s _).trans (enterOpen_only _)
  · exact enter_only s _

theorem openingCheck_only (s : State) : ControlOnly s s.openingCheck := by
  unfold State.openingCheck
  split
  · exact enterRaising_only s
  · exact .refl s

theorem enterClosure_only (s : State) : ControlOnly s s.enterClosure :=
  ((enter_only s _).trans (elect_only _)).trans (openingCheck_only _)

theorem tryComplete_only (s : State) : ControlOnly s s.tryComplete := by
  unfold State.tryComplete
  split
  · exact enterClosure_only s
  · exact .refl s

theorem enterLowerExit_only (s : State) : ControlOnly s s.enterLowerExit :=
  ((enter_only s _).trans (records_only _ _ _)).trans (tryComplete_only _)

theorem tryLowerExit_only (s : State) : ControlOnly s s.tryLowerExit := by
  unfold State.tryLowerExit
  split
  · split
    · exact beginWait_only s
    · exact enterLowerExit_only s
  · exact .refl s

theorem enterLowerEntry_only (s : State) : ControlOnly s s.enterLowerEntry :=
  (enter_only s _).trans (records_only _ _ _)

theorem relower_only (s : State) : ControlOnly s s.relower := (enterLowerEntry_only s).trans (momentary_only _ _ _ _)

theorem abandonStep_only (s : State) : ControlOnly s s.abandonStep := by
  unfold State.abandonStep
  dsimp only
  split
  · split
    · exact (records_only s _ _).trans (sendMachine_only _ _ _)
    · exact records_only s _ _
  · exact records_only s _ _

theorem causesChanged_only (s : State) : ControlOnly s s.causesChanged := by
  unfold State.causesChanged
  split
  · split
    · exact .refl s
    · exact enterAmber_only s
  · split
    · exact .refl s
    · exact (enterAmber_only s).trans (abandonStep_only _)
  · split
    · exact .refl s
    · exact relower_only s
  · exact openingCheck_only s
  · exact openingCheck_only s
  · exact .refl s

theorem auction_only (s : State) : ControlOnly s s.auction := by
  unfold State.auction
  dsimp only
  split
  · exact elect_only s
  · exact (elect_only s).trans (causesChanged_only _)

theorem tell_only (s : State) : ControlOnly s s.tell := by
  unfold State.tell
  dsimp only
  split
  · exact .refl s
  · exact (records_only s _ _).trans (causesChanged_only _)

/-! ### Steps, machines, zone -/

theorem endStep_only (s : State) (o : StepOutcome) : ControlOnly s (s.endStep o) :=
  (records_only s _ _).trans (enterOpen_only _)

theorem cycleRaise_only (s : State) (i : Fin 4) : ControlOnly s (s.cycleRaise i) :=
  (records_only s _ _).trans (sendMachine_only _ _ _)

theorem cycleEnd_only (s : State) (i : Fin 4) : ControlOnly s (s.cycleEnd i) := by
  unfold State.cycleEnd
  split
  · exact endStep_only s _
  · exact endStep_only s _
  · exact .refl s

theorem cycleAdvance_only (s : State) (i : Fin 4) : ControlOnly s (s.cycleAdvance i) := by
  unfold State.cycleAdvance
  split
  · split
    · exact (cycleRaise_only s i).trans (cycleEnd_only _ i)
    · exact cycleEnd_only s i
  · exact .refl s

theorem moveClosure_only (s : State) (c : CrossingState) : ControlOnly s (s.moveClosure c) :=
  (enter_only s c).trans (openingCheck_only _)

theorem machinesChanged_only (s : State) : ControlOnly s s.machinesChanged := by
  unfold State.machinesChanged
  split
  · exact tryLowerExit_only s
  · exact tryComplete_only s
  · split
    · exact moveClosure_only s _
    · exact .refl s
  · split
    · exact moveClosure_only s _
    · exact .refl s
  · split
    · exact enterOpen_only s
    · exact .refl s
  · exact .refl s

theorem machineTold_only (s : State) (i : Fin 4) : ControlOnly s (s.machineTold i) := by
  unfold State.machineTold
  split
  · exact cycleAdvance_only s i
  · exact machinesChanged_only s

theorem machineEvent_only (s : State) (i : Fin 4) (r : MachineRec) : ControlOnly s (s.machineEvent i r) := by
  unfold State.machineEvent
  dsimp only
  split
  · exact (putMachine_only s i r).trans (machineTold_only _ i)
  · exact putMachine_only s i r

theorem zoneReturn_only (s : State) : ControlOnly s s.zoneReturn := by
  unfold State.zoneReturn
  refine ((enterRecord_only s _).trans (ControlOnly.foldl _ (fun s i => ?_) _ _)).trans (tryLowerExit_only _)
  split
  · exact .refl s
  · exact sendTo_only _ s i

theorem cycleZone_only (s : State) : ControlOnly s s.cycleZone := by
  unfold State.cycleZone
  split
  · split
    · exact (cycleRaise_only s _).trans (cycleEnd_only _ _)
    · exact .refl s
  · exact .refl s

theorem zoneTold_only (s : State) : ControlOnly s s.zoneTold := by
  unfold State.zoneTold
  split
  · split
    · exact zoneReturn_only s
    · exact .refl s
  · split
    · exact tryLowerExit_only s
    · exact (endWait_only s).trans (tryLowerExit_only _)
  · exact cycleZone_only s
  · exact .refl s

/-! ### The events of the control blocks -/

theorem opZoneEdge_only (b : Bool) (s : State) : ControlOnly s (opZoneEdge b s) := by
  unfold opZoneEdge
  split
  · exact .refl s
  · exact (setZone_only s _).trans (zoneTold_only _)

theorem opHoldDeadline_only (s : State) : ControlOnly s (opHoldDeadline s) := by
  unfold opHoldDeadline
  dsimp only
  split
  · exact (setZone_only s _).trans (raise_only _ _ _ _)
  · exact .refl s

theorem opDetectorChange_only (i : Fin 4) (u d b : Bool) (s : State) : ControlOnly s (opDetectorChange i u d b s) := by
  unfold opDetectorChange
  dsimp only
  split
  · exact .refl s
  · split
    · exact machineEvent_only s i _
    · exact setMachine_only s i _

theorem opLeaveDeadline_only (i : Fin 4) (s : State) : ControlOnly s (opLeaveDeadline i s) := by
  unfold opLeaveDeadline
  dsimp only
  split
  · exact machineEvent_only s i _
  · exact .refl s

theorem opTravelDeadline_only (i : Fin 4) (s : State) : ControlOnly s (opTravelDeadline i s) := by
  unfold opTravelDeadline
  dsimp only
  split
  · exact machineEvent_only s i _
  · exact .refl s

theorem opStateTimer_only (s : State) : ControlOnly s (opStateTimer s) := by
  unfold opStateTimer
  split
  · split
    · exact (enter_only s _).trans (records_only _ _ _)
    · exact enterLowerEntry_only s
    · exact .refl s
  · exact .refl s

theorem opExitTimer_only (s : State) : ControlOnly s (opExitTimer s) := by
  unfold opExitTimer
  dsimp only
  split
  · split
    · exact (records_only s _ _).trans (tryLowerExit_only _)
    · exact records_only s _ _
  · exact .refl s

theorem opLampTestEnd_only (s : State) : ControlOnly s (opLampTestEnd s) := by
  unfold opLampTestEnd
  split
  · exact endStep_only s _
  · exact .refl s

theorem opKeyEdge_only (b : Bool) (s : State) : ControlOnly s (opKeyEdge b s) := by
  unfold opKeyEdge
  split
  · exact .refl s
  · exact (records_only s _ _).trans (auction_only _)

theorem opSamplePoint_only (c : Vector Nat 12) (s : State) : ControlOnly s (opSamplePoint c s) := by
  unfold opSamplePoint
  dsimp only
  split
  · split
    · exact ⟨_, _, _, _, _, .refl _, rfl⟩
    · split
      · exact ⟨_, _, _, _, _, .refl _, rfl⟩
      · exact setLights_only s _
  · exact .refl s

theorem opHalfPeriodEnd_only (s : State) : ControlOnly s (opHalfPeriodEnd s) := by
  unfold opHalfPeriodEnd
  split
  · exact ⟨_, _, _, _, _, .refl _, rfl⟩
  · exact .refl s

/-! ### Demands and sections -/

theorem eachDemand_only (s : State) (f : DemandCtx → DemandRec → DemandStep) : TrackOnly s (s.eachDemand f) := by
  unfold State.eachDemand
  split
  · exact .refl s
  · dsimp only
    refine TrackOnly.trans (t := { s with demands := _ }) ⟨_, _, _, _, _, _, _, .refl _, rfl⟩ (report_only _ _).track

theorem oneDemand_only (s : State) (n : Nat) (f : DemandCtx → DemandRec → DemandStep) : TrackOnly s (s.oneDemand n f) :=
  eachDemand_only s _

theorem demandsSeeSections_only (s : State) (old : List SectRec) : TrackOnly s (s.demandsSeeSections old) :=
  eachDemand_only s _

theorem passage_only (s : State) (dp : Nat) (dir : CountDir) (ev : Option Time) : TrackOnly s (s.passage dp dir ev) :=
  (eachDemand_only s _).trans (tell_only _).track

theorem opStartTimeTimer_only (n : Nat) (s : State) : TrackOnly s (opStartTimeTimer n s) :=
  (oneDemand_only s n _).trans (tell_only _).track

theorem opStandingDeadline_only (n : Nat) (s : State) : TrackOnly s (opStandingDeadline n s) :=
  (oneDemand_only s n _).trans (tell_only _).track

theorem sectsReplaced_only (s : State) (x : List SectRec) (acts : List FaultAct) (old : List SectRec) :
    TrackOnly s ((State.report { s with sects := x } acts).demandsSeeSections old).tell := by
  refine TrackOnly.trans (t := { s with sects := x }) ⟨_, _, _, _, _, _, _, .refl _, rfl⟩ ?_
  exact ((report_only _ acts).track.trans (demandsSeeSections_only _ old)).trans (tell_only _).track

theorem sectionEvent_only (s : State) (f : SectionEntry → SectRec → SectRec) : TrackOnly s (s.sectionEvent f) :=
  sectsReplaced_only s _ _ _

theorem countDelta_only (s : State) (dp i d : Nat) : TrackOnly s (s.countDelta dp i d) := sectionEvent_only s _

theorem disturbDp_only (s : State) (dp : Nat) (c : SectCause) : TrackOnly s (s.disturbDp dp c) := sectionEvent_only s _

theorem restoreSection_only (s : State) (n mode : Nat) : TrackOnly s (s.restoreSection n mode) := sectsReplaced_only s _ _ _

end Sys2Proof.Machine
end

