-- ==== Sys2Proof/Laws/Device.lean ====
section
/-! SUPPORT. What the operations of the Line Interface, the Detection Unit, the Report Engine and the Status and Command Unit
can change. `LineOnly s t` says that `t` is `s` but for the line, the Fault Table, the status builder and the microseconds;
`DetectOnly s t` that it is `s` but for what the track and the detection blocks own, the Fault Table being told; `DeviceOnly s t`
that the queue, the clock, the draws and the Plan Store stand. A COUNT may make a swap come due between its events: what the
operations that take one change is said for every relation that covers detection and the Plan Store (`Covers`), and
`covers_idle` is that relation when no activation waits. -/

namespace Sys2Proof.Machine

open Sys2Proof

/-! ### The relations -/

/-- What the Line Interface and the Report Engine change. -/
def LineOnly (s t : State) : Prop := ∃ f l b n, t = { s with faults := f, lif := l, builder := b, us := n }

/-- What detection, sections, demands and control change, with the line they offer to. -/
def DetectOnly (s t : State) : Prop :=
  ∃ f c a g b d x p h l n, s.faults.Told f ∧
    t = { s with faults := f, crossing := c, authority := a, lights := g, barrier := b, demands := d, sects := x, dps := p,
                 heads := h, lif := l, us := n }

/-- What every command but START and those of the Plan Store changes at most. -/
def DeviceOnly (s t : State) : Prop :=
  t.pending = s.pending ∧ t.clock = s.clock ∧ t.draws = s.draws ∧ t.store = s.store

theorem LineOnly.refl (s : State) : LineOnly s s := ⟨_, _, _, _, rfl⟩

theorem LineOnly.trans {s t u : State} (h : LineOnly s t) (k : LineOnly t u) : LineOnly s u := by
  obtain ⟨f, l, b, n, rfl⟩ := h
  obtain ⟨f', l', b', n', rfl⟩ := k
  exact ⟨f', l', b', n', rfl⟩

theorem DetectOnly.refl (s : State) : DetectOnly s s := ⟨_, _, _, _, _, _, _, _, _, _, _, .refl _, rfl⟩

theorem DetectOnly.trans {s t u : State} (h : DetectOnly s t) (k : DetectOnly t u) : DetectOnly s u := by
  obtain ⟨f, c, a, g, b, d, x, p, i, l, n, hf, rfl⟩ := h
  obtain ⟨f', c', a', g', b', d', x', p', i', l', n', hf', rfl⟩ := k
  exact ⟨f', c', a', g', b', d', x', p', i', l', n', hf.trans hf', rfl⟩

theorem TrackOnly.detect {s t : State} (h : TrackOnly s t) : DetectOnly s t := by
  obtain ⟨f, c, a, l, b, d, x, hf, rfl⟩ := h
  exact ⟨f, c, a, l, b, d, x, s.dps, s.heads, s.lif, s.us, hf, rfl⟩

theorem ControlOnly.detect {s t : State} (h : ControlOnly s t) : DetectOnly s t := h.track.detect

theorem DetectOnly.foldl {α : Type} (f : State → α → State) (h : ∀ s x, DetectOnly s (f s x)) (l : List α) (s : State) :
    DetectOnly s (l.foldl f s) := by
  induction l generalizing s with
  | nil => exact .refl s
  | cons x l ih => exact (h s x).trans (ih _)

theorem DeviceOnly.refl (s : State) : DeviceOnly s s := ⟨rfl, rfl, rfl, rfl⟩

theorem DeviceOnly.trans {s t u : State} (h : DeviceOnly s t) (k : DeviceOnly t u) : DeviceOnly s u :=
  ⟨k.1.trans h.1, k.2.1.trans h.2.1, k.2.2.1.trans h.2.2.1, k.2.2.2.trans h.2.2.2⟩

theorem LineOnly.device {s t : State} (h : LineOnly s t) : DeviceOnly s t := by
  obtain ⟨f, l, b, n, rfl⟩ := h
  exact ⟨rfl, rfl, rfl, rfl⟩

theorem DetectOnly.device {s t : State} (h : DetectOnly s t) : DeviceOnly s t := by
  obtain ⟨f, c, a, g, b, d, x, p, i, l, n, _, rfl⟩ := h
  exact ⟨rfl, rfl, rfl, rfl⟩

theorem ControlOnly.device {s t : State} (h : ControlOnly s t) : DeviceOnly s t := h.detect.device

theorem TrackOnly.device {s t : State} (h : TrackOnly s t) : DeviceOnly s t := h.detect.device

/-- What the line's part leaves as it was. -/
theorem LineOnly.keeps {s t : State} (h : LineOnly s t) :
    t.pins = s.pins ∧ t.dps = s.dps ∧ t.heads = s.heads ∧ t.sects = s.sects ∧ t.demands = s.demands ∧
      t.crossing = s.crossing ∧ t.authority = s.authority ∧ t.lights = s.lights ∧ t.barrier = s.barrier := by
  obtain ⟨f, l, b, n, rfl⟩ := h
  exact ⟨rfl, rfl, rfl, rfl, rfl, rfl, rfl, rfl, rfl⟩

/-- What detection and track leave as it was. -/
theorem DetectOnly.keeps {s t : State} (h : DetectOnly s t) : t.pins = s.pins ∧ t.builder = s.builder := by
  obtain ⟨f, c, a, g, b, d, x, p, i, l, n, _, rfl⟩ := h
  exact ⟨rfl, rfl⟩

/-! ### The line -/

theorem lif_line (s : State) (l : Lif) : LineOnly s { s with lif := l } := ⟨_, _, _, _, rfl⟩

theorem lif_detect (s : State) (l : Lif) : DetectOnly s { s with lif := l } :=
  ⟨_, _, _, _, _, _, _, _, _, _, _, .refl _, rfl⟩

theorem faults_line (s : State) (f : FaultTable) : LineOnly s { s with faults := f } := ⟨_, _, _, _, rfl⟩

theorem onPort_eq (s : State) (p : Port) (f : PortRec → PortRec) :
    s.onPort p f = { s with lif := (s.onPort p f).lif } := by cases p <;> rfl

theorem onPort_line (s : State) (p : Port) (f : PortRec → PortRec) : LineOnly s (s.onPort p f) := by
  cases p <;> exact ⟨_, _, _, _, rfl⟩

theorem onPort_detect (s : State) (p : Port) (f : PortRec → PortRec) : DetectOnly s (s.onPort p f) := by
  cases p <;> exact ⟨_, _, _, _, _, _, _, _, _, _, _, .refl _, rfl⟩

theorem count_line (s : State) (p : Port) (f : Counters → Counters) : LineOnly s (s.count p f) := onPort_line s p _

theorem count_detect (s : State) (p : Port) (f : Counters → Counters) : DetectOnly s (s.count p f) := onPort_detect s p _

theorem offerBox_line (s : State) (cls : Nat) (w : Waiting) : LineOnly s (s.offerBox cls w) := by
  unfold State.offerBox
  split
  · exact count_line s _ _
  · split
    · exact lif_line s _
    · exact count_line s _ _

theorem offerBox_detect (s : State) (cls : Nat) (w : Waiting) : DetectOnly s (s.offerBox cls w) := by
  unfold State.offerBox
  split
  · exact count_detect s _ _
  · split
    · exact lif_detect s _
    · exact count_detect s _ _

theorem offerField_line (s : State) (w : Waiting) : LineOnly s (s.offerField w) := by
  unfold State.offerField
  split
  · exact count_line s _ _
  · split
    · exact lif_line s _
    · exact count_line s _ _

theorem offerField_detect (s : State) (w : Waiting) : DetectOnly s (s.offerField w) := by
  unfold State.offerField
  split
  · exact count_detect s _ _
  · split
    · exact lif_detect s _
    · exact count_detect s _ _

theorem offerStatus_line (s : State) (w : Waiting) : LineOnly s (s.offerStatus w) := by
  unfold State.offerStatus
  split
  · exact (lif_line s _).trans (count_line _ _ _)
  · exact offerBox_line s _ _

theorem reply_line (s : State) (dest tag : Byte) (o : ReplyOutcome) (d : ReplyData) : LineOnly s (s.reply dest tag o d) := by
  unfold State.reply
  split
  · exact .refl s
  · exact offerBox_line s _ _

/-- A REPLY that finds the box port ACTIVE and room in class 0 joins its tail (R42, R192). -/
theorem reply_queued {s : State} {a : Byte} (hs : s.lif.station = some a) (hp : s.lif.box.state = .active)
    (hr : s.lif.q0.length < 16) (dest tag : Byte) (o : ReplyOutcome) (d : ReplyData) :
    s.reply dest tag o d = { s with lif := { s.lif with q0 := s.lif.q0 ++ [ownTelegram a dest (.reply tag o d)] } } := by
  simp [State.reply, State.offerBox, hs, hp, Lif.queue, Lif.setQueue, classRoom, hr]

theorem raise_line (s : State) (c : FaultCode) (src : FaultSource) (cls : FaultClass) : LineOnly s (s.raise c src cls) :=
  faults_line s _

theorem clear_line (s : State) (c : FaultCode) (src : FaultSource) : LineOnly s (s.clear c src) := faults_line s _

theorem activity_line (s : State) (p : Port) : LineOnly s (s.activity p) := onPort_line s p _

theorem emptyQueues_line (s : State) (p : Port) : LineOnly s (s.emptyQueues p) := by
  cases p
  · exact ⟨_, _, _, _, rfl⟩
  · exact ⟨_, _, _, _, rfl⟩

theorem enterDown_line (s : State) (p : Port) : LineOnly s (s.enterDown p) := by
  unfold State.enterDown
  have h := (onPort_line s p fun r => { r with state := .down }).trans (emptyQueues_line _ p)
  cases p
  · have k (t : State) : LineOnly t (State.newRound { t with faults := t.faults.boxDown }) := ⟨_, _, _, _, rfl⟩
    dsimp only
    split
    · exact h.trans (k _)
    · exact (h.trans (k _)).trans (raise_line _ _ _ _)
  · dsimp only
    split
    · exact h
    · exact h.trans (raise_line _ _ _ _)

theorem opPortTimeout_line (p : Port) (s : State) : LineOnly s (opPortTimeout p s) := by
  unfold opPortTimeout
  split
  · exact enterDown_line s p
  · exact .refl s

theorem opFill_line (p : Port) (s : State) : LineOnly s (opFill p s) := by
  unfold opFill
  split
  · exact .refl s
  · exact activity_line s p

theorem invert_line (s : State) (p : Port) : LineOnly s (s.invert p) := by
  unfold State.invert
  dsimp only
  split
  · exact (onPort_line s p _).trans (clear_line _ _ _)
  · exact (onPort_line s p _).trans (raise_line _ _ _ _)

theorem opComplement_line (p : Port) (s : State) : LineOnly s (opComplement p s) := by
  unfold opComplement
  split
  · exact invert_line s p
  · exact (invert_line s p).trans (onPort_line _ p _)
  · exact .refl s

theorem opErrorExpiry_line (p : Port) (s : State) : LineOnly s (opErrorExpiry p s) := by
  unfold opErrorExpiry
  dsimp only
  split
  · exact ((onPort_line s p _).trans (onPort_line _ p _)).trans (clear_line _ _ _)
  · exact onPort_line s p _

theorem opLoopExpiry_line (p : Port) (s : State) : LineOnly s (opLoopExpiry p s) := by
  unfold opLoopExpiry
  dsimp only
  split
  · exact ((onPort_line s p _).trans (onPort_line _ p _)).trans (clear_line _ _ _)
  · exact onPort_line s p _

theorem formatFailure_line (s : State) (p : Port) : LineOnly s (s.formatFailure p) := by
  unfold State.formatFailure
  dsimp only
  split
  · exact (onPort_line s p _).trans (raise_line _ _ _ _)
  · exact onPort_line s p _

theorem loopDiscard_line (s : State) (p : Port) : LineOnly s (s.loopDiscard p) := by
  unfold State.loopDiscard
  dsimp only
  split
  · exact (onPort_line s p _).trans (raise_line _ _ _ _)
  · exact onPort_line s p _

theorem sendClass_line (s : State) (cls : Nat) : LineOnly s (s.sendClass cls) := by
  unfold State.sendClass
  split
  · exact .refl s
  · exact lif_line s _

theorem chooseClass_line {s t : State} {c : Nat} (h : s.chooseClass = some (c, t)) : LineOnly s t := by
  unfold State.chooseClass at h
  split at h
  · obtain ⟨_, rfl⟩ := Prod.mk.inj (Option.some.inj h)
    exact .refl s
  · split at h
    · obtain ⟨_, rfl⟩ := Prod.mk.inj (Option.some.inj h)
      exact .refl s
    · split at h
      · cases h
      · simp only [Option.map_eq_some_iff, Prod.mk.injEq] at h
        obtain ⟨_, _, _, rfl⟩ := h
        exact lif_line s _

theorem startBox_line (s : State) : LineOnly s s.startBox := by
  unfold State.startBox
  split
  · split
    · exact .refl s
    · rename_i h
      exact (chooseClass_line h).trans (sendClass_line _ _)
  · exact .refl s

theorem startField_line (s : State) : LineOnly s s.startField := by
  unfold State.startField
  split
  · split
    · exact .refl s
    · exact lif_line s _
  · exact .refl s

theorem startSending_line (s : State) : LineOnly s s.startSending := (startBox_line s).trans (startField_line _)

theorem opTransmitEnd_line (p : Port) (s : State) : LineOnly s (opTransmitEnd p s) := by
  unfold opTransmitEnd
  split
  · exact .refl s
  · split
    · exact LineOnly.trans (t := { s with us := _ }) ⟨_, _, _, _, rfl⟩ (onPort_line _ p _)
    · exact .refl s

theorem takeReport_line (s : State) : LineOnly s s.takeReport := by
  unfold State.takeReport
  split
  · exact .refl s
  · split
    · split
      · exact .refl s
      · split
        · exact .refl s
        · exact (faults_line s _).trans (offerBox_line _ _ _)
    · exact .refl s

theorem selectReports_line (s : State) : LineOnly s s.selectReports :=
  (((takeReport_line s).trans (takeReport_line _)).trans (takeReport_line _)).trans (takeReport_line _)

theorem buildStatus_line (s : State) : LineOnly s s.buildStatus := by
  unfold State.buildStatus
  split
  · exact .refl s
  · split
    · exact LineOnly.trans (t := { s with builder := _ }) ⟨_, _, _, _, rfl⟩ (offerStatus_line _ _)
    · exact .refl s

theorem statusIfChanged_line (s : State) : LineOnly s s.statusIfChanged := by
  unfold State.statusIfChanged
  split
  · exact buildStatus_line s
  · exact .refl s

theorem opStatusPeriod_line (s : State) : LineOnly s (opStatusPeriod s) := by
  unfold opStatusPeriod
  split
  · exact buildStatus_line s
  · exact .refl s

theorem opCheckingComplete_line (p : Port) (s : State) : LineOnly s (opCheckingComplete p s) := by
  unfold opCheckingComplete
  split
  · have h := (onPort_line s p fun r => { r with state := .active }).trans (clear_line _ .portDown (portSource p))
    cases p
    · exact h.trans (buildStatus_line _)
    · exact h
  · exact .refl s

theorem isolate_line (s : State) : LineOnly s s.isolate := by
  unfold State.isolate
  cases h : s.lif.field.sending with
  | none => exact (((onPort_line s _ _).trans (emptyQueues_line _ _)).trans (clear_line _ _ _))
  | some x =>
    exact ((((onPort_line s _ _).trans (count_line _ _ _)).trans (onPort_line _ _ _)).trans (emptyQueues_line _ _)).trans
      (clear_line _ _ _)

theorem restorePort_line (s : State) : LineOnly s s.restorePort := (onPort_line s _ _).trans (raise_line _ _ _ _)

/-- What follows a command when no swap is due touches the line, the Fault Table and the status builder alone (log 10). -/
theorem finish_line (s : State) : LineOnly s s.finish :=
  (((selectReports_line s).trans (statusIfChanged_line _)).trans (startSending_line _)).trans (selectReports_line _)

/-- With no activation waiting the Plan Store does nothing (R19, R20). -/
theorem swapIfDue_of_idle {s : State} (h : s.store.pending = false) : s.swapIfDue = s := by
  simp [State.swapIfDue, State.swapDue, h]

/-- With no activation waiting, the end of a step is `finish`. -/
theorem settle_of_idle {s : State} (h : s.store.pending = false) : s.settle = s.finish := by
  rw [State.settle, swapIfDue_of_idle h]

/-! ### Detection -/

theorem setDp_detect (s : State) (i : Nat) (r : DpRec) : DetectOnly s (s.setDp i r) :=
  ⟨_, _, _, _, _, _, _, _, _, _, _, .refl _, rfl⟩

theorem onHead_detect (s : State) (h : Fin 8) (f : HeadRec → HeadRec) : DetectOnly s (s.onHead h f) :=
  ⟨_, _, _, _, _, _, _, _, _, _, _, .refl _, rfl⟩

theorem atMicros_detect (s : State) (n : Nat) : DetectOnly s (s.atMicros n) :=
  ⟨_, _, _, _, _, _, _, _, _, _, _, .refl _, rfl⟩

theorem raise_detect (s : State) (c : FaultCode) (src : FaultSource) (cls : FaultClass) : DetectOnly s (s.raise c src cls) :=
  (raise_only s c src cls).detect

theorem clear_detect (s : State) (c : FaultCode) (src : FaultSource) : DetectOnly s (s.clear c src) :=
  (clear_only s c src).detect

theorem momentary_detect (s : State) (c : FaultCode) (src : FaultSource) (cls : FaultClass) :
    DetectOnly s (s.momentary c src cls) := (momentary_only s c src cls).detect

theorem clearSilent_detect (s : State) (i : Nat) (w : DpState) : DetectOnly s (s.clearSilent i w) := by
  unfold State.clearSilent
  split
  · exact clear_detect s _ _
  · exact .refl s

theorem dpFailed_detect (s : State) (i : Nat) (w : DpState) (r : DpRec) : DetectOnly s (s.dpFailed i w r) := by
  unfold State.dpFailed
  dsimp only
  split
  · exact setDp_detect s i _
  · exact (((setDp_detect s i _).trans (disturbDp_only _ i _).detect).trans (raise_detect _ _ _ _)).trans
      (clearSilent_detect _ i w)

/-- A relation that holds of all that detection changes, and of what the Plan Store does when it is told of a change. -/
structure Covers (R : State → State → Prop) (told : State → State) : Prop where
  detect : ∀ {s t : State}, DetectOnly s t → R s t
  trans : ∀ {s t u : State}, R s t → R t u → R s u
  told : ∀ s : State, R s (told s)

theorem Covers.refl {R : State → State → Prop} {told : State → State} (k : Covers R told) (s : State) : R s s :=
  k.detect (.refl s)

theorem Covers.foldl {R : State → State → Prop} {told : State → State} (k : Covers R told) {α : Type} (f : State → α → State)
    (h : ∀ s x, R s (f s x)) (l : List α) (s : State) : R s (l.foldl f s) := by
  induction l generalizing s with
  | nil => exact k.refl s
  | cons x l ih => exact k.trans (h s x) (ih _)

/-- Where the Plan Store does nothing, detection is all. -/
theorem covers_id : Covers DetectOnly id := ⟨fun h => h, fun h k => h.trans k, DetectOnly.refl⟩

theorem handPassage_detect (s : State) (old : List DpEntry) (i : Nat) (dir : CountDir) (ev : Option Time) :
    DetectOnly s (s.handPassage old i dir ev) := by
  unfold State.handPassage
  split
  · exact .refl s
  · exact (passage_only s _ dir ev).detect

section Told

variable {R : State → State → Prop} {told : State → State} (k : Covers R told)
include k

theorem handOnBy_covered (s : State) (i a b : Nat) (ev : Option Time) : R s (s.handOnBy told i a b ev) := by
  unfold State.handOnBy
  dsimp only
  have sects := k.trans (k.detect (countDelta_only s i a b).detect) (k.told _)
  have pass (t : State) (dir : CountDir) : R t (told (t.handPassage s.dpTable i dir ev)) :=
    k.trans (k.detect (handPassage_detect t _ i dir ev)) (k.told _)
  split <;> split
  · exact sects
  · exact k.trans sects (pass _ _)
  · exact k.trans sects (pass _ _)
  · exact k.trans (k.trans sects (pass _ _)) (pass _ _)

theorem dpPlausibleBy_covered (s : State) (i : Nat) (d : Delivery) (x y : Bool) (a b : Nat) (r : DpRec) :
    R s (s.dpPlausibleBy told i d x y a b r) := by
  unfold State.dpPlausibleBy
  dsimp only
  split
  · exact k.detect (setDp_detect s i _)
  · exact k.trans (k.detect (setDp_detect s i _)) (handOnBy_covered k _ i a b _)

theorem dpCountBy_covered (s : State) (i : Nat) (d : Delivery) (x y : Bool) (r : DpRec) :
    R s (s.dpCountBy told i d x y r) := by
  unfold State.dpCountBy
  dsimp only
  split
  · exact k.detect (((setDp_detect s i _).trans (disturbDp_only _ i _).detect).trans (momentary_detect _ _ _ _))
  · split
    · exact k.detect ((setDp_detect s i _).trans (disturbDp_only _ i _).detect)
    · exact dpPlausibleBy_covered k s i d _ _ _ _ _

end Told

theorem dpBaseline_detect (s : State) (i : Nat) (d : Delivery) (w : DpState) (r : DpRec) :
    DetectOnly s (s.dpBaseline i d w r) := by
  unfold State.dpBaseline
  dsimp only
  split
  · exact dpFailed_detect s i w _
  · exact ((setDp_detect s i _).trans (clearSilent_detect _ i w)).trans (clear_detect _ _ _)

theorem deliverBy_covered {R : State → State → Prop} {told : State → State} (k : Covers R told) (s : State) (i : Nat)
    (d : Delivery) : R s (s.deliverBy told i d) := by
  unfold State.deliverBy
  split
  · exact k.refl s
  · split
    · exact k.refl s
    · dsimp only
      split
      · exact k.detect (dpBaseline_detect s i d _ _)
      · split
        · exact k.detect (dpFailed_detect s i _ _)
        · split
          · exact k.trans (k.detect ((setDp_detect s i _).trans (clear_detect _ _ _))) (dpCountBy_covered k _ i d _ _ _)
          · exact k.trans (k.detect (((setDp_detect s i _).trans (clear_detect _ _ _)).trans (clear_detect _ _ _)))
              (dpCountBy_covered k _ i d _ _ _)
          · exact dpCountBy_covered k s i d _ _ _

theorem opSilence_detect (i : Nat) (s : State) : DetectOnly s (opSilence i s) := by
  unfold opSilence
  split
  · exact .refl s
  · split
    · exact ((setDp_detect s i _).trans (disturbDp_only _ i _).detect).trans (raise_detect _ _ _ _)
    · exact .refl s

theorem emitBy_covered {R : State → State → Prop} {told : State → State} (k : Covers R told) (s : State) (h : Fin 8) :
    R s (s.emitBy told h) := by
  unfold State.emitBy
  split
  · exact k.refl s
  · split
    · exact k.refl s
    · exact k.trans (k.detect (((onHead_detect s h _).trans (offerBox_detect _ _ _)).trans (offerField_detect _ _)))
        (deliverBy_covered k _ _ _)

/-! ### The Plan Store told (R20) -/

/-- What the heads owe is carried by detection alone. -/
theorem owedCarried_detect (s : State) : DetectOnly s s.owedCarried := by
  refine DetectOnly.foldl _ (fun t h => ?_) _ s
  split
  · exact emitBy_covered covers_id t h
  · exact .refl t

/-- With no head owing a COUNT there is none to carry (R72). -/
theorem owedCarried_of_clear {s : State} (h : ∀ k : Fin 8, s.heads[k].owed = false) : s.owedCarried = s := by
  have keep (l : List (Fin 8)) : l.foldl (fun t k => if t.heads[k].owed then t.emitBy id k else t) s = s := by
    induction l with
    | nil => rfl
    | cons k l ih => rw [List.foldl_cons, if_neg (by rw [h k]; exact Bool.false_ne_true)]; exact ih
  exact keep _

/-- What a command changes when no activation waits is what detection changes. -/
def IdleDetect (s t : State) : Prop := s.store.pending = false → DetectOnly s t

theorem covers_idle : Covers IdleDetect State.swapIfDue where
  detect h _ := h
  trans h k idle := (h idle).trans (k (by rw [(h idle).device.2.2.2]; exact idle))
  told s idle := by rw [swapIfDue_of_idle idle]; exact .refl s

/-- With no activation waiting, axles are handed on as the event of the sections and the passages, the increasing first
(R61). -/
theorem handOn_of_idle {s : State} (h : s.store.pending = false) (i dInc dDec : Nat) (ev : Option Time) :
    s.handOn i dInc dDec ev =
      (let u := s.countDelta i dInc dDec
       let v := if dInc = 0 then u else u.passage i .inc ev
       if dDec = 0 then v else v.passage i .dec ev) := by
  have hu := (countDelta_only s i dInc dDec).device.2.2.2
  have pass (t : State) (ht : t.store = s.store) (dir : CountDir) :
      (t.handPassage s.dpTable i dir ev).swapIfDue = t.passage i dir ev := by
    have same : t.dpTable = s.dpTable := by simp only [State.dpTable, State.par, ht]
    have e : t.handPassage s.dpTable i dir ev = t.passage i dir ev := by simp [State.handPassage, dpIndexNow, same]
    rw [e]
    exact swapIfDue_of_idle (by rw [(passage_only t i dir ev).device.2.2.2, ht]; exact h)
  have start : (s.countDelta i dInc dDec).swapIfDue = s.countDelta i dInc dDec := swapIfDue_of_idle (by rw [hu]; exact h)
  unfold State.handOn State.handOnBy
  dsimp only
  rw [start, pass _ hu .inc]
  have hv : (if dInc = 0 then s.countDelta i dInc dDec else (s.countDelta i dInc dDec).passage i .inc ev).store = s.store := by
    split
    · exact hu
    · exact (passage_only _ i .inc ev).device.2.2.2.trans hu
  rw [pass _ hv .dec]

theorem owe_detect (s : State) (h : Fin 8) : DetectOnly s (s.owe h) := onHead_detect s h _

theorem oweHealth_detect (s : State) (h : Fin 8) : DetectOnly s (s.oweHealth h) := by
  unfold State.oweHealth
  split
  · exact .refl s
  · exact owe_detect s h

section Heads

variable {R : State → State → Prop} (k : Covers R State.swapIfDue)
include k

theorem carry_covered (s : State) (h : Fin 8) : R s (s.carry h) := by
  unfold State.carry
  split
  · exact emitBy_covered k s h
  · exact k.refl s

theorem carryNow_covered (s : State) (h : Fin 8) : R s (s.carryNow h) := by
  unfold State.carryNow
  split
  · exact emitBy_covered k s h
  · exact k.refl s

end Heads

/-- A head that owes nothing emits nothing (R72). -/
theorem carry_of_clear {s : State} {h : Fin 8} (o : s.heads[h].owed = false) : s.carry h = s := by
  unfold State.carry
  rw [o]
  rfl

/-- While a further event of the head waits at this clock value, its COUNT waits too (R72). -/
theorem carry_of_waiting {s : State} {h : Fin 8} (w : s.headWaits h = true) : s.carry h = s := by simp [State.carry, w]

/-- At the last of those events the COUNT goes out (R72). -/
theorem carry_of_last {s : State} {h : Fin 8} (o : s.heads[h].owed = true) (w : s.headWaits h = false) :
    s.carry h = s.emit h := by
  unfold State.carry
  rw [o, w]
  rfl

/-- A pulse waits for no pulse that began after its end (R68). -/
theorem waitsFor_of_later {x : ChannelRec} {t : Moment} (h : ∀ w, x.unpaired = some w → momentBefore t w.last = false) :
    x.waitsFor t = none := by
  unfold ChannelRec.waitsFor
  cases hx : x.unpaired with
  | none => rfl
  | some w => simp [h w hx]

theorem waitsFor_of_overlap {x : ChannelRec} {t : Moment} {w : Pulse} (h : x.unpaired = some w)
    (o : momentBefore t w.last = true) : x.waitsFor t = some w := by simp [ChannelRec.waitsFor, h, o]

/-- A valid pulse with no partner, waiting or under way, is a one-channel event, and so is one whose channel has a pulse waiting
already for the one under way (R68, R69; log 15). -/
theorem validPulse_of_no_partner {v : State} {h : Fin 8} {c : Channel} {p : Pulse}
    (none_waits : (v.heads[h].channel (otherChannel c)).waitsFor p.first = none)
    (alone : ∀ t, (v.heads[h].channel (otherChannel c)).since = some t →
      momentBefore t p.last = false ∨ (v.heads[h].channel c).waitsFor t ≠ none) :
    v.validPulse h c p = (v.onHead h (HeadRec.onChannel c fun x => { x with last := some p })).oneChannel h := by
  have e : (v.onHead h (HeadRec.onChannel c fun x => { x with last := some p })).heads[h] =
      HeadRec.onChannel c (fun x => { x with last := some p }) v.heads[h] := by simp [State.onHead]
  have w : ∀ t, ChannelRec.waitsFor { v.heads[h].channel c with last := some p } t = (v.heads[h].channel c).waitsFor t :=
    fun _ => rfl
  unfold State.validPulse
  dsimp only
  rw [e, channel_onChannel_other, channel_onChannel, none_waits]
  dsimp only
  rw [if_neg]
  cases hx : (v.heads[h].channel (otherChannel c)).since with
  | none => simp
  | some t =>
    rcases alone t hx with a | a
    · simp [a]
    · cases hw : (v.heads[h].channel c).waitsFor t with
      | none => exact absurd hw a
      | some _ => simp only [w, hw]; simp

/-- At the end of an active time no longer than Pmax nothing is found stuck (R67). -/
theorem stuckDue_of_short {s : State} {h : Fin 8} {c : Channel} {t : Moment} (a : (s.heads[h].channel c).since = some t)
    (n : microsFrom t s.moment < (s.heads[h].channel c).limit) : s.stuckDue h c = false := by
  unfold State.stuckDue
  rw [a]
  dsimp only
  rw [decide_eq_false (Nat.not_le.mpr n)]
  simp

theorem oneChannel_detect (s : State) (h : Fin 8) : DetectOnly s (s.oneChannel h) :=
  ((momentary_detect s _ _ _).trans (onHead_detect _ h _)).trans (oweHealth_detect _ h)

theorem stuck_detect (s : State) (h : Fin 8) : DetectOnly s (s.stuck h) :=
  (onHead_detect s h _).trans (oweHealth_detect _ h)

theorem noisePulse_detect (s : State) (h : Fin 8) (c : Channel) (m : Moment) : DetectOnly s (s.noisePulse h c m) := by
  unfold State.noisePulse
  split
  · exact .refl s
  · exact (onHead_detect s h _).trans (oneChannel_detect _ h)

theorem pairPulses_detect (s : State) (h : Fin 8) (c : Channel) (p w : Pulse) : DetectOnly s (s.pairPulses h c p w) := by
  unfold State.pairPulses
  dsimp only
  split
  · exact (onHead_detect s h _).trans (oneChannel_detect _ h)
  · exact ((onHead_detect s h _).trans (onHead_detect _ h _)).trans (owe_detect _ h)

theorem validPulse_detect (s : State) (h : Fin 8) (c : Channel) (p : Pulse) : DetectOnly s (s.validPulse h c p) := by
  unfold State.validPulse
  dsimp only
  refine (onHead_detect s h (HeadRec.onChannel c fun x => { x with last := some p })).trans ?_
  split
  · exact pairPulses_detect _ h c p _
  · repeat' split
    all_goals first | exact onHead_detect _ h _ | exact oneChannel_detect _ h

theorem judgePulse_detect (s : State) (h : Fin 8) (c : Channel) (limit : Nat) (p : Pulse) :
    DetectOnly s (s.judgePulse h c limit p) := by
  unfold State.judgePulse
  dsimp only
  split
  · exact noisePulse_detect s h c _
  · split
    · exact stuck_detect s h
    · exact validPulse_detect s h c p

theorem headEdge_detect (s : State) (h : Fin 8) (c : Channel) (on : Bool) (us : Nat) :
    DetectOnly s (s.headEdge h c on us) := by
  unfold State.headEdge
  dsimp only
  split
  · exact .refl s
  · split
    · exact (atMicros_detect s us).trans (onHead_detect _ h _)
    · have k := (atMicros_detect s us).trans
        (onHead_detect _ h (HeadRec.onChannel c fun x => { x with level := false, since := none }))
      split
      · exact k
      · split
        · exact k.trans (judgePulse_detect _ h c _ _)
        · exact k

theorem clearRestarted_detect (s : State) : DetectOnly s s.clearRestarted :=
  ⟨_, _, _, _, _, _, _, _, _, _, _, .refl _, rfl⟩

section Events

variable {R : State → State → Prop} (k : Covers R State.swapIfDue)
include k

theorem opHeadEdge_covered (h : Fin 8) (c : Channel) (on : Bool) (us : Nat) (s : State) : R s (opHeadEdge h c on us s) :=
  k.trans (k.detect (headEdge_detect s h c on us)) (carry_covered k _ h)

theorem opHeadStuck_covered (h : Fin 8) (c : Channel) (s : State) : R s (opHeadStuck h c s) := by
  unfold opHeadStuck
  split
  · exact k.trans (k.detect (stuck_detect s h)) (carry_covered k _ h)
  · exact carry_covered k s h

theorem opOneChannelExpiry_covered (h : Fin 8) (s : State) : R s (opOneChannelExpiry h s) := by
  unfold opOneChannelExpiry
  dsimp only
  split
  · exact k.trans (k.detect ((onHead_detect s h _).trans (owe_detect _ h))) (carry_covered k _ h)
  · exact k.trans (k.detect (onHead_detect s h _)) (carry_covered k _ h)

theorem opHeartbeat_covered (h : Fin 8) (s : State) : R s (opHeartbeat h s) := by
  unfold opHeartbeat
  split
  · exact emitBy_covered k s h
  · exact k.refl s

theorem emitAll_covered (s : State) : R s s.emitAll := k.foldl _ (fun t h => emitBy_covered k t h) _ s

theorem carryAll_covered (s : State) : R s s.carryAll := k.foldl _ (carry_covered k) _ s

theorem opRestartedClears_covered (s : State) : R s (opRestartedClears s) := by
  unfold opRestartedClears
  split
  · exact k.trans (k.detect (clearRestarted_detect s)) (carryAll_covered k _)
  · exact carryAll_covered k s

theorem resetHead_covered (s : State) (n : Nat) : R s (s.resetHead n) := by
  unfold State.resetHead
  split
  · exact k.trans (k.trans (carryNow_covered k s _) (k.detect ((onHead_detect _ _ _).trans (oweHealth_detect _ _))))
      (carryNow_covered k _ _)
  · exact k.refl s

end Events

end Sys2Proof.Machine
end

