-- ==== Sys2Proof/Laws/Command.lean ====
section
/-! SUPPORT. What the commands of the signal box, a received telegram, the Plan Store and the supply inputs can change: all
but the Plan Store's own leave the queue, the clock, the draws and the Plan Store (`DeviceOnly`); the Plan Store's own leave
the queue, the clock and the draws (`QueueOnly`). -/

namespace Sys2Proof.Machine

open Sys2Proof

/-! ### Word from the line, replies -/

theorem reply_device (s : State) (dest tag : Byte) (o : ReplyOutcome) (d : ReplyData) : DeviceOnly s (s.reply dest tag o d) :=
  (reply_line s dest tag o d).device

theorem hear_device (s : State) : DeviceOnly s s.hear := ⟨rfl, rfl, rfl, rfl⟩

/-! ### Reports -/

theorem cmdAckReport_device (tag x y : Byte) (s : State) : DeviceOnly s (cmdAckReport tag x y s) := by
  unfold cmdAckReport
  repeat' split
  all_goals
    first
      | exact reply_device s _ _ _ _
      | exact DeviceOnly.trans (faults_line s _).device (reply_device _ _ _ _ _)

theorem cmdReportsStart_device (tag : Byte) (s : State) : DeviceOnly s (cmdReportsStart tag s) :=
  (faults_line s _).device.trans (reply_device _ _ _ _ _)

theorem cmdReportsStop_device (tag : Byte) (s : State) : DeviceOnly s (cmdReportsStop tag s) :=
  (faults_line s _).device.trans (reply_device _ _ _ _ _)

theorem cmdClassEnable_device (tag x y : Byte) (s : State) : DeviceOnly s (cmdClassEnable tag x y s) := by
  unfold cmdClassEnable
  split
  · exact reply_device s _ _ _ _
  · exact (faults_line s _).device.trans (reply_device _ _ _ _ _)

theorem cmdClearAcked_device (tag : Byte) (s : State) : DeviceOnly s (cmdClearAcked tag s) :=
  (faults_line s _).device.trans (reply_device _ _ _ _ _)

/-! ### Sections and equipment -/

theorem cmdRestoreSection_device (tag x y : Byte) (s : State) : DeviceOnly s (cmdRestoreSection tag x y s) := by
  unfold cmdRestoreSection
  split
  · exact (restoreSection_only s _ _).device.trans (reply_device _ _ _ _ _)
  · exact reply_device s _ _ _ _

theorem cmdResetLamp_device (tag x : Byte) (s : State) : DeviceOnly s (cmdResetLamp tag x s) := by
  unfold cmdResetLamp
  repeat' split
  all_goals
    first
      | exact reply_device s _ _ _ _
      | exact (setLights_only s _).device.trans (reply_device _ _ _ _ _)

theorem sendAgain_only (s : State) (i : Fin 4) : ControlOnly s (s.sendAgain i) := by
  unfold State.sendAgain
  split
  · exact .refl s
  · exact sendMachine_only s i _

theorem resetMachine_only (s : State) (i : Fin 4) : ControlOnly s (s.resetMachine i) :=
  (((setMachine_only s i _).trans (clear_only _ _ _)).trans (sendAgain_only _ i)).trans (machineTold_only _ i)

theorem cmdResetMachine_device (tag x : Byte) (s : State) : DeviceOnly s (cmdResetMachine tag x s) := by
  unfold cmdResetMachine
  dsimp only
  repeat' split
  all_goals
    first
      | exact reply_device s _ _ _ _
      | exact (resetMachine_only s _).device.trans (reply_device _ _ _ _ _)

/-! ### Authority -/

theorem replyOwner_device (s : State) (tag : Byte) : DeviceOnly s (s.replyOwner tag) := reply_device s _ _ _ _

theorem requests_only (s : State) (f : AuthorityRec → AuthorityRec) : ControlOnly s (s.requests f) := by
  unfold State.requests
  split
  · exact .refl s
  · exact (records_only s s.crossing (f s.authority)).trans (auction_only _)

theorem cmdRemoteRequest_device (tag : Byte) (s : State) : DeviceOnly s (cmdRemoteRequest tag s) := by
  unfold cmdRemoteRequest
  split
  · exact (requests_only s _).device.trans (replyOwner_device _ tag)
  · exact reply_device s _ _ _ _

theorem cmdRemoteRelease_device (tag : Byte) (s : State) : DeviceOnly s (cmdRemoteRelease tag s) :=
  (requests_only s _).device.trans (replyOwner_device _ tag)

theorem cmdTestRequest_device (tag : Byte) (s : State) : DeviceOnly s (cmdTestRequest tag s) := by
  unfold cmdTestRequest
  split
  · exact (requests_only s _).device.trans (replyOwner_device _ tag)
  · exact reply_device s _ _ _ _

theorem cmdTestRelease_device (tag : Byte) (s : State) : DeviceOnly s (cmdTestRelease tag s) :=
  (requests_only s _).device.trans (replyOwner_device _ tag)

theorem cmdLocalRelease_device (tag : Byte) (s : State) : DeviceOnly s (cmdLocalRelease tag s) := by
  unfold cmdLocalRelease
  split
  · exact (requests_only s _).device.trans (replyOwner_device _ tag)
  · exact reply_device s _ _ _ _

theorem cmdLocalWithdraw_device (tag : Byte) (s : State) : DeviceOnly s (cmdLocalWithdraw tag s) :=
  (requests_only s _).device.trans (replyOwner_device _ tag)

theorem cmdRemoteClose_device (tag : Byte) (s : State) : DeviceOnly s (cmdRemoteClose tag s) := by
  unfold cmdRemoteClose
  split
  · exact ((crossing_only s _).trans (causesChanged_only _)).device.trans (reply_device _ _ _ _ _)
  · exact reply_device s _ _ _ _

theorem cmdRemoteOpen_device (tag : Byte) (s : State) : DeviceOnly s (cmdRemoteOpen tag s) := by
  unfold cmdRemoteOpen
  split
  · exact ((crossing_only s _).trans (causesChanged_only _)).device.trans (reply_device _ _ _ _ _)
  · exact reply_device s _ _ _ _

theorem beginStep_only (s : State) (tag : Byte) (st : Step) : ControlOnly s (s.beginStep tag st) := by
  cases st with
  | machineCycle i =>
    exact (enter_only s _).trans ((records_only (s.enter .testActive) (s.enter .testActive).crossing _).trans
      ((lightCommand_only _ _).trans (sendMachine_only _ i _)))
  | none =>
    exact (enter_only s _).trans ((records_only (s.enter .testActive) (s.enter .testActive).crossing _).trans
      (lightCommand_only _ _))
  | lampTest =>
    exact (enter_only s _).trans ((records_only (s.enter .testActive) (s.enter .testActive).crossing _).trans
      (lightCommand_only _ _))

theorem cmdTestStep_device (tag x y : Byte) (s : State) : DeviceOnly s (cmdTestStep tag x y s) := by
  unfold cmdTestStep
  split
  · exact reply_device s _ _ _ _
  · split
    · exact reply_device s _ _ _ _
    · split
      · exact (beginStep_only s tag _).device.trans (reply_device _ _ _ _ _)
      · exact reply_device s _ _ _ _

/-! ### Isolation, readback, supply inputs, deadlines of records -/

theorem cmdPortIsolate_device (tag : Byte) (s : State) : DeviceOnly s (cmdPortIsolate tag s) := by
  unfold cmdPortIsolate
  split
  · exact reply_device s _ _ _ _
  · exact (isolate_line s).device.trans (reply_device _ _ _ _ _)

theorem cmdPortRestore_device (tag : Byte) (s : State) : DeviceOnly s (cmdPortRestore tag s) := by
  unfold cmdPortRestore
  split
  · exact (restorePort_line s).device.trans (reply_device _ _ _ _ _)
  · exact reply_device s _ _ _ _

theorem cmdRead_device (tag x y : Byte) (s : State) : DeviceOnly s (cmdRead tag x y s) := by
  unfold cmdRead
  split <;> exact reply_device s _ _ _ _

theorem pins_device (s : State) (p : Pins) : DeviceOnly s { s with pins := p } := ⟨rfl, rfl, rfl, rfl⟩

theorem opPanelClose_device (b : Bool) (s : State) : DeviceOnly s (opPanelClose b s) := by
  unfold opPanelClose
  dsimp only
  split
  · exact .refl s
  · split
    · exact (pins_device s _).trans (causesChanged_only _).device
    · exact pins_device s _

theorem opPanelOpen_device (b : Bool) (s : State) : DeviceOnly s (opPanelOpen b s) := by
  unfold opPanelOpen
  dsimp only
  split
  · exact .refl s
  · split
    · exact (pins_device s _).trans (causesChanged_only _).device
    · exact pins_device s _

theorem opBattLow_device (b : Bool) (s : State) : DeviceOnly s (opBattLow b s) := by
  unfold opBattLow
  dsimp only
  split
  · exact .refl s
  · split
    · exact (pins_device s _).trans (raise_only _ _ _ _).device
    · exact (pins_device s _).trans (clear_only _ _ _).device

theorem opMainsOff_device (b : Bool) (s : State) : DeviceOnly s (opMainsOff b s) := by
  unfold opMainsOff
  dsimp only
  split
  · exact .refl s
  · split
    · exact (pins_device s _).trans (raise_only _ _ _ _).device
    · exact (pins_device s _).trans (clear_only _ _ _).device

theorem opDrain_device (n : Fin 64) (s : State) : DeviceOnly s (opDrain n s) := by
  unfold opDrain
  split
  · exact (faults_line s _).device
  · exact .refl s

theorem opAckDeadline_device (n : Fin 64) (s : State) : DeviceOnly s (opAckDeadline n s) := by
  unfold opAckDeadline
  split
  · exact (faults_line s _).device
  · exact .refl s

/-! ### The Plan Store's own -/

/-- What the commands of the Plan Store leave: the queue, the clock and the draws. -/
def QueueOnly (s t : State) : Prop := t.pending = s.pending ∧ t.clock = s.clock ∧ t.draws = s.draws

theorem QueueOnly.refl (s : State) : QueueOnly s s := ⟨rfl, rfl, rfl⟩

theorem QueueOnly.trans {s t u : State} (h : QueueOnly s t) (k : QueueOnly t u) : QueueOnly s u :=
  ⟨k.1.trans h.1, k.2.1.trans h.2.1, k.2.2.trans h.2.2⟩

theorem DeviceOnly.queue {s t : State} (h : DeviceOnly s t) : QueueOnly s t := ⟨h.1, h.2.1, h.2.2.1⟩

theorem reply_queue (s : State) (dest tag : Byte) (o : ReplyOutcome) (d : ReplyData) : QueueOnly s (s.reply dest tag o d) :=
  (reply_device s dest tag o d).queue

theorem opWriteComplete_queue (s : State) : QueueOnly s (opWriteComplete s) := by
  unfold opWriteComplete
  split
  · exact .refl s
  · exact QueueOnly.trans (t := s.finishWrite _) ⟨rfl, rfl, rfl⟩ (reply_queue _ _ _ _ _)

theorem cmdPlanBlock_queue (tag : Byte) (args : List Byte) (s : State) : QueueOnly s (cmdPlanBlock tag args s) := by
  unfold cmdPlanBlock
  repeat' split
  all_goals first | exact reply_queue s _ _ _ _ | exact ⟨rfl, rfl, rfl⟩

theorem cmdPlanCheck_queue (tag : Byte) (s : State) : QueueOnly s (cmdPlanCheck tag s) := by
  unfold cmdPlanCheck
  repeat' split
  all_goals
    first
      | exact reply_queue s _ _ _ _
      | exact QueueOnly.trans (t := s.onStandby _) ⟨rfl, rfl, rfl⟩ (reply_queue _ _ _ _ _)

theorem cmdPlanCancel_queue (tag : Byte) (s : State) : QueueOnly s (cmdPlanCancel tag s) := by
  unfold cmdPlanCancel
  split
  · exact QueueOnly.trans (t := { s with store := _ }) ⟨rfl, rfl, rfl⟩ (reply_queue _ _ _ _ _)
  · exact reply_queue s _ _ _ _

theorem swapMachine_only (old : Option Plan) (new : Plan) (s : State) (i : Fin 4) :
    ControlOnly s (State.swapMachine old new s i) := by
  unfold State.swapMachine
  dsimp only
  split
  · exact setMachine_only s i _
  · split
    · exact .refl s
    · have h (m : MachineRec) := (setMachine_only s i m).trans
        (crossing_only _ { s.crossing with lastDir := s.crossing.lastDir.set i none })
      split
      · exact (h _).trans (raiseMachineFailed_only _ i)
      · split
        · split
          · exact ((h _).trans (clear_only _ _ _)).trans (sendMachine_only _ i _)
          · exact (h _).trans (clear_only _ _ _)
        · exact h _

theorem forceDoubtful_only (s : State) : TrackOnly s s.forceDoubtful := eachDemand_only s _

theorem swapRecords_keeps (s : State) (old : Option Plan) (new : Plan) :
    QueueOnly s (s.swapRecords old new) ∧ (s.swapRecords old new).store = s.store := ⟨⟨rfl, rfl, rfl⟩, rfl⟩

theorem swapEquipment_device (s : State) (old : Option Plan) (new : Plan) : DeviceOnly s (s.swapEquipment old new) :=
  ((((faults_line s _).device.trans (setLights_only _ _).device).trans
    (ControlOnly.foldl _ (swapMachine_only old new) _ _).device)).trans (momentary_only _ _ _ _).device

theorem swapCrossing_device (s : State) : DeviceOnly s s.swapCrossing := by
  unfold State.swapCrossing
  have h (t : State) (v : CrossingRec) : DeviceOnly t
      ((State.elect { t with crossing := v }).forceDoubtful.tell.causesChanged) :=
    (((crossing_only t v).trans (elect_only _)).track.trans (forceDoubtful_only _)).device.trans
      ((tell_only _).trans (causesChanged_only _)).device
  dsimp only
  split
  · exact ((enterLowerEntry_only s).trans (clear_only _ _ _)).device.trans (h _ _)
  · exact h s _

theorem emitNamed_device (s : State) (old : Option Plan) (new : Plan) : DeviceOnly s (s.emitNamed old new) := by
  refine (DetectOnly.foldl _ (fun s h => ?_) _ s).device
  split
  · exact emitBy_covered covers_id s h
  · exact .refl s

theorem swap_queue (s : State) : QueueOnly s s.swap :=
  (QueueOnly.trans (t := { s with store := s.store.swapped (planOf s.store.standby.image) }) ⟨rfl, rfl, rfl⟩
    (swapRecords_keeps _ s.store.plan _).1).trans
    (((swapEquipment_device _ s.store.plan _).trans (swapCrossing_device _)).trans (emitNamed_device _ s.store.plan _)).queue

/-- A swap replaces the Plan Store as `PlanStore.swapped` says and in no other way (R21). -/
theorem swap_store (s : State) : s.swap.store = s.store.swapped (planOf s.store.standby.image) := by
  have h := ((swapEquipment_device (State.swapRecords
    { s with store := s.store.swapped (planOf s.store.standby.image) } s.store.plan (planOf s.store.standby.image))
    s.store.plan (planOf s.store.standby.image)).trans (swapCrossing_device _)).trans
    (emitNamed_device _ s.store.plan (planOf s.store.standby.image))
  exact h.2.2.2

theorem swapIfDue_queue (s : State) : QueueOnly s s.swapIfDue := by
  unfold State.swapIfDue
  split
  · exact (owedCarried_detect s).device.queue.trans (swap_queue _)
  · exact .refl s

/-- Detection, whatever the Plan Store does when it is told, leaves the queue, the clock and the draws. -/
theorem covers_queue : Covers QueueOnly State.swapIfDue := ⟨fun h => h.device.queue, fun h k => h.trans k, swapIfDue_queue⟩

/-- The Plan Store stands, or the swap for which an activation waited has been made. -/
def StoreMoved (s t : State) : Prop :=
  t.store = s.store ∨ (s.store.pending = true ∧ t.store = s.store.swapped (planOf s.store.standby.image))

theorem StoreMoved.trans {s t u : State} (h : StoreMoved s t) (k : StoreMoved t u) : StoreMoved s u := by
  rcases h with h | ⟨w, h⟩
  · unfold StoreMoved
    rw [← h]
    exact k
  · rcases k with k | ⟨v, -⟩
    · exact .inr ⟨w, k.trans h⟩
    · rw [h] at v
      exact absurd v Bool.false_ne_true

/-- Told of a change, the Plan Store makes the one swap that an activation waits for, or stands (R20, R21). -/
theorem covers_store : Covers StoreMoved State.swapIfDue where
  detect h := .inl h.device.2.2.2
  trans h k := h.trans k
  told s := by
    unfold State.swapIfDue
    split
    · rename_i due
      have same := (owedCarried_detect s).device.2.2.2
      refine .inr ⟨?_, by rw [swap_store, same]⟩
      simp only [State.swapDue, Bool.and_eq_true] at due
      exact due.1.1
    · exact .inl rfl

theorem cmdResetHead_covered {R : State → State → Prop} (k : Covers R State.swapIfDue)
    (reply : ∀ (s : State) (tag : Byte) (o : ReplyOutcome), R s (s.reply 0 tag o .none)) (tag x : Byte) (s : State) :
    R s (cmdResetHead tag x s) := by
  unfold cmdResetHead
  split
  · exact k.trans (resetHead_covered k s _) (reply _ _ _)
  · exact reply s _ _

theorem settle_queue (s : State) : QueueOnly s s.settle := (swapIfDue_queue s).trans (finish_line _).device.queue

theorem cmdPlanActivate_queue (tag : Byte) (i v : Nat) (s : State) : QueueOnly s (cmdPlanActivate tag i v s) := by
  unfold cmdPlanActivate
  dsimp only
  have h : QueueOnly s { s with store := { s.store with pending := true } } := ⟨rfl, rfl, rfl⟩
  repeat' split
  all_goals
    first
      | exact reply_queue s _ _ _ _
      | exact (h.trans (swapIfDue_queue _)).trans (reply_queue _ _ _ _ _)
      | exact h.trans (reply_queue _ _ _ _ _)

/-! ### A command of the box, a received telegram -/

theorem runCommand_queue (tag : Byte) (c : BoxCommand) (s : State) : QueueOnly s (runCommand tag c s) := by
  cases c with
  | planBlock l => exact cmdPlanBlock_queue tag l s
  | planCheck => exact cmdPlanCheck_queue tag s
  | planActivate i v => exact cmdPlanActivate_queue tag _ _ s
  | planCancel => exact cmdPlanCancel_queue tag s
  | ackReport x y => exact (cmdAckReport_device tag x y s).queue
  | reportsStart => exact (cmdReportsStart_device tag s).queue
  | reportsStop => exact (cmdReportsStop_device tag s).queue
  | classEnable x y => exact (cmdClassEnable_device tag x y s).queue
  | restoreSection x y => exact (cmdRestoreSection_device tag x y s).queue
  | resetLamp x => exact (cmdResetLamp_device tag x s).queue
  | resetMachine x => exact (cmdResetMachine_device tag x s).queue
  | resetHead x => exact cmdResetHead_covered covers_queue (fun t _ _ => reply_queue t _ _ _ _) tag x s
  | remoteRequest => exact (cmdRemoteRequest_device tag s).queue
  | remoteRelease => exact (cmdRemoteRelease_device tag s).queue
  | remoteClose => exact (cmdRemoteClose_device tag s).queue
  | remoteOpen => exact (cmdRemoteOpen_device tag s).queue
  | localRelease => exact (cmdLocalRelease_device tag s).queue
  | localWithdraw => exact (cmdLocalWithdraw_device tag s).queue
  | testRequest => exact (cmdTestRequest_device tag s).queue
  | testRelease => exact (cmdTestRelease_device tag s).queue
  | testStep x y => exact (cmdTestStep_device tag x y s).queue
  | portIsolate => exact (cmdPortIsolate_device tag s).queue
  | portRestore => exact (cmdPortRestore_device tag s).queue
  | clearAcked => exact (cmdClearAcked_device tag s).queue
  | read x y => exact (cmdRead_device tag x y s).queue

theorem decodeAndRun_queue (body : List Byte) (s : State) : QueueOnly s (decodeAndRun body s) := by
  unfold decodeAndRun
  split
  · split
    · exact reply_queue s _ _ _ _
    · split
      · exact reply_queue s _ _ _ _
      · exact runCommand_queue _ _ s
  · exact .refl s

theorem relay_line (s : State) (p : Port) (t : Telegram) : LineOnly s (s.relay p t) := by
  unfold State.relay
  split
  · exact count_line s _ _
  · have h : LineOnly s (match p with
      | .box => s.offerField (s.relayCopy t)
      | .field => s.offerBox (relayClass t) (s.relayCopy t)) := by
      cases p
      · exact offerField_line s _
      · exact offerBox_line s _ _
    dsimp only
    split
    · exact h.trans (count_line _ _ _)
    · exact h

theorem deliverLine_covered {R : State → State → Prop} (k : Covers R State.swapIfDue) (s : State) (p : Port) (i : Nat)
    (t : Telegram) (b : CountBody) : R s (s.deliverLine p i t b) := by
  unfold State.deliverLine
  dsimp only
  split
  · exact k.trans (k.detect (((lif_detect s _).trans (clear_detect _ _ _)).trans (count_detect _ p _)))
      (deliverBy_covered k _ i _)
  · exact k.trans (k.detect (count_detect s p _)) (deliverBy_covered k _ i _)

theorem wrongSide_detect (s : State) (p : Port) (i : Nat) (src : Byte) : DetectOnly s (s.wrongSide p i src) := by
  unfold State.wrongSide
  dsimp only
  split
  · exact count_detect s p _
  · exact ((count_detect s p _).trans (lif_detect _ _)).trans (raise_detect _ _ _ _)

theorem checkDp_covered {R : State → State → Prop} (k : Covers R State.swapIfDue) (s : State) (p : Port) (t : Telegram) :
    R s (s.checkDp p t) := by
  unfold State.checkDp
  split
  · split
    · exact k.refl s
    · split
      · exact deliverLine_covered k s p _ t _
      · exact k.detect (wrongSide_detect s p _ _)
  · exact k.refl s

theorem consume_queue (s : State) (p : Port) (t : Telegram) : QueueOnly s (s.consume p t) := by
  unfold State.consume
  split
  · exact (count_line s p _).device.queue
  · split
    · exact (count_line s .box _).device.queue.trans (decodeAndRun_queue _ _)
    · exact ((count_line s p _).device.trans (reply_device _ _ _ _ _)).queue

theorem passOn_queue (s : State) (p : Port) (t : Telegram) : QueueOnly s (s.passOn p t) := by
  have h (u : State) : QueueOnly u (if u.lif.station = some t.dest then u.consume p t
      else if t.kind = kindCount then (u.relay p t).checkDp p t else u.relay p t) := by
    split
    · exact consume_queue u p t
    · split
      · exact (relay_line u p t).device.queue.trans (checkDp_covered covers_queue _ p t)
      · exact (relay_line u p t).device.queue
  unfold State.passOn
  dsimp only
  split
  · exact (hear_device s).queue.trans (h _)
  · exact h s

theorem accept_queue (s : State) (p : Port) (t : Telegram) : QueueOnly s (s.accept p t) := by
  unfold State.accept
  dsimp only
  have h := (count_line s p fun c => { c with received := up16 c.received }).trans (activity_line _ p)
  split
  · exact (h.trans (loopDiscard_line _ p)).device.queue
  · split
    · exact h.device.queue.trans (passOn_queue _ p t)
    · exact (h.trans (count_line _ p _)).device.queue

theorem opTelegram_queue (p : Port) (bytes : List Byte) (us : Nat) (s : State) : QueueOnly s (opTelegram p bytes us s) := by
  unfold opTelegram
  dsimp only
  have h : QueueOnly s (s.atMicros us) := ⟨rfl, rfl, rfl⟩
  split
  · exact .refl s
  · split
    · exact h.trans (formatFailure_line _ p).device.queue
    · exact h.trans (accept_queue _ p _)

/-! ### The end of a step -/

/-- A command whose operation leaves no activation waiting ends with `finish`. -/
theorem completes_of_idle {op : State → State} {s : State} (h : (op s).store.pending = false) :
    completes op s = .next (op s).finish := by
  rw [completes, settle_of_idle h]

/-- The same, for an operation that leaves the Plan Store alone. -/
theorem completes_of_device {op : State → State} {s : State} (h : DeviceOnly s (op s)) (hp : s.store.pending = false) :
    completes op s = .next (op s).finish := completes_of_idle (by rw [h.2.2.2]; exact hp)

/-- The same, for a command of the box: the box is heard first (R37, R192). -/
theorem box_completes_of_device {run : State → State} {s : State} (h : DeviceOnly s.hear (run s.hear))
    (hp : s.store.pending = false) : completes (boxCommand run) s = .next (run s.hear).finish :=
  completes_of_idle (op := boxCommand run) (by show (run s.hear).store.pending = false; rw [h.2.2.2]; exact hp)

end Sys2Proof.Machine
end

