-- ==== Sys2Proof/Laws/Faults.lean ====
section
/-! SUPPORT. The Fault Table through `get`, `put`, `update` and `find`: what a slot holds after a record is put in one, which
slot the record of a pair stands in, and what a put leaves of the process and of the enables. -/

namespace Sys2Proof.Machine

open Sys2Proof

/-! ### Slots -/

theorem get_ordinary (t : FaultTable) (i : Fin 63) : t.get i.val = t.ordinary[i] := by
  simp [FaultTable.get, i.isLt]

@[simp] theorem get_overflow (t : FaultTable) : t.get 63 = some t.overflow := by simp [FaultTable.get]

theorem get_beyond (t : FaultTable) {n : Nat} (h : 63 < n) : t.get n = none := by
  unfold FaultTable.get
  rw [dif_neg (by omega), if_neg (by omega)]

/-- A record put in a slot stands in it. -/
theorem get_put_same (t : FaultTable) {n : Nat} (r : FaultRec) (h : n ≤ 63) : (t.put n r).get n = some r := by
  unfold FaultTable.put
  by_cases h63 : n < 63
  · simp [h63, FaultTable.get]
  · have e : n = 63 := by omega
    subst e
    simp [FaultTable.get]

/-- A record put in a slot changes no other. -/
theorem get_put_other (t : FaultTable) {n m : Nat} (r : FaultRec) (h : m ≠ n) : (t.put n r).get m = t.get m := by
  unfold FaultTable.put
  by_cases h63 : n < 63
  · by_cases hm : m < 63
    · simp [h63, FaultTable.get, hm, h.symm]
    · simp [h63, FaultTable.get, hm]
  · by_cases e : n = 63
    · subst e
      by_cases hm : m < 63
      · simp [FaultTable.get, hm]
      · simp [FaultTable.get, hm, h]
    · simp [h63, e]

@[simp] theorem put_process (t : FaultTable) (n : Nat) (r : FaultRec) : (t.put n r).process = t.process := by
  simp only [FaultTable.put]; repeat' split
  all_goals rfl

@[simp] theorem put_timeouts (t : FaultTable) (n : Nat) (r : FaultRec) : (t.put n r).timeouts = t.timeouts := by
  simp only [FaultTable.put]; repeat' split
  all_goals rfl

@[simp] theorem put_advisory (t : FaultTable) (n : Nat) (r : FaultRec) : (t.put n r).advisory = t.advisory := by
  simp only [FaultTable.put]; repeat' split
  all_goals rfl

@[simp] theorem put_info (t : FaultTable) (n : Nat) (r : FaultRec) : (t.put n r).info = t.info := by
  simp only [FaultTable.put]; repeat' split
  all_goals rfl

/-- A put keeps the window, but for its own slot when the record is not SENT. -/
theorem put_window (t : FaultTable) {n : Nat} (r : FaultRec) (h : n ≤ 63) :
    (t.put n r).window = if r.report = .sent then t.window else t.window.filter fun m => decide (m ≠ n) := by
  unfold FaultTable.put
  by_cases h63 : n < 63
  · simp [h63]
  · have e : n = 63 := by omega
    subst e
    simp

/-! ### Updates -/

theorem update_none (t : FaultTable) {n : Nat} (f : FaultRec → FaultRec) (h : t.get n = none) : t.update n f = t := by
  unfold FaultTable.update; rw [h]

theorem update_some (t : FaultTable) {n : Nat} {r : FaultRec} (f : FaultRec → FaultRec) (h : t.get n = some r) :
    t.update n f = t.put n (f r) := by
  unfold FaultTable.update; rw [h]

/-- A slot after an update of that slot. -/
theorem get_update_same (t : FaultTable) {n : Nat} (f : FaultRec → FaultRec) (h : n ≤ 63) :
    (t.update n f).get n = (t.get n).map f := by
  cases hr : t.get n with
  | none => rw [update_none t f hr, hr]; rfl
  | some r => rw [update_some t f hr, get_put_same t _ h]; rfl

/-- An update of a slot changes no other. -/
theorem get_update_other (t : FaultTable) {n m : Nat} (f : FaultRec → FaultRec) (h : m ≠ n) :
    (t.update n f).get m = t.get m := by
  cases hr : t.get n with
  | none => rw [update_none t f hr]
  | some r => rw [update_some t f hr, get_put_other t _ h]

/-! ### The record of a pair -/

theorem holds_iff (t : FaultTable) (c : FaultCode) (src : FaultSource) (i : Fin 63) :
    t.holds c src i = true ↔ ∃ r, t.ordinary[i] = some r ∧ r.code = c ∧ r.source = src := by
  unfold FaultTable.holds
  cases h : t.ordinary[i] with
  | none => simp
  | some r => simp

/-- The slot found for a pair holds its record. -/
theorem find_some {t : FaultTable} {c : FaultCode} {src : FaultSource} {i : Fin 63} (h : t.find c src = some i) :
    ∃ r, t.ordinary[i] = some r ∧ r.code = c ∧ r.source = src :=
  (holds_iff t c src i).1 (List.find?_some h)

/-- No slot is found for a pair that no record is of. -/
theorem find_none {t : FaultTable} {c : FaultCode} {src : FaultSource} (h : t.find c src = none) (i : Fin 63) :
    t.holds c src i = false := by
  have := List.find?_eq_none.1 h i (List.mem_finRange i)
  simpa using this

/-- Under the law of the table, the record of a pair is found where it stands. -/
theorem find_of_law {t : FaultTable} (law : FaultTableLaw t) {i : Fin 63} {r : FaultRec} (h : t.ordinary[i] = some r) :
    t.find r.code r.source = some i := by
  cases hf : t.find r.code r.source with
  | none =>
    have h1 := find_none hf i
    rw [(holds_iff t r.code r.source i).2 ⟨r, h, rfl, rfl⟩] at h1
    exact absurd h1 (by simp)
  | some j =>
    obtain ⟨u, hu, hc, hs⟩ := find_some hf
    rw [law.2.1 j i u r hu h hc hs]

end Sys2Proof.Machine
end

