-- ==== Sys2Proof/Laws/Lists.lean ====
section
/-! SUPPORT. What the list operations of the records answer: two lists combined, a list with its indices, the first index that
satisfies a test, one record modified, an event when it is due. -/

namespace Sys2Proof.Machine

open Sys2Proof

theorem zipWithList_eq {α β γ : Type} (f : α → β → γ) (l : List α) (m : List β) : zipWithList f l m = List.zipWith f l m := by
  induction l generalizing m with
  | nil => simp [zipWithList]
  | cons x xs ih => cases m <;> simp [zipWithList, ih]

theorem zipWithList_getElem? {α β γ : Type} (f : α → β → γ) {l : List α} {m : List β} {i : Nat} {x : α} {y : β}
    (hx : l[i]? = some x) (hy : m[i]? = some y) : (zipWithList f l m)[i]? = some (f x y) := by
  simp [zipWithList_eq, List.getElem?_zipWith, hx, hy]

theorem length_zipWithList {α β γ : Type} (f : α → β → γ) (l : List α) (m : List β) :
    (zipWithList f l m).length = min l.length m.length := by simp [zipWithList_eq]

theorem indexed_getElem? {α : Type} (n : Nat) (l : List α) (i : Nat) : (indexed n l)[i]? = (l[i]?).map fun x => (n + i, x) := by
  induction l generalizing n i with
  | nil => simp [indexed]
  | cons x xs ih =>
    cases i with
    | zero => simp [indexed]
    | succ i => simp [indexed, ih, Nat.add_comm, Nat.add_left_comm]

theorem length_indexed {α : Type} (n : Nat) (l : List α) : (indexed n l).length = l.length := by
  induction l generalizing n with
  | nil => rfl
  | cons x xs ih => simp [indexed, ih]

theorem mem_indexed {α : Type} {l : List α} {ix : Nat × α} : ix ∈ indexed 0 l ↔ l[ix.1]? = some ix.2 := by
  rw [List.mem_iff_getElem?]
  simp only [indexed_getElem?, Nat.zero_add]
  constructor
  · rintro ⟨i, h⟩
    obtain ⟨x, hx, rfl⟩ := Option.map_eq_some_iff.mp h
    exact hx
  · intro h; exact ⟨ix.1, by simp [h]⟩

theorem indexWhere_eq_some {α : Type} {test : α → Bool} {n : Nat} {l : List α} {j : Nat} : indexWhere test n l = some j ↔
    ∃ i x, j = n + i ∧ l[i]? = some x ∧ test x = true ∧ ∀ (k : Nat) (y : α), k < i → l[k]? = some y → test y = false := by
  induction l generalizing n with
  | nil => simp [indexWhere]
  | cons x xs ih =>
    unfold indexWhere
    split
    · rename_i t
      constructor
      · intro h
        exact ⟨0, x, by simpa using (Option.some.inj h).symm, rfl, t, fun k y hk => by omega⟩
      · rintro ⟨i, y, rfl, hy, ty, first⟩
        cases i with
        | zero => rfl
        | succ i => simp [first 0 x (by omega) rfl] at t
    · rename_i t
      rw [ih]
      constructor
      · rintro ⟨i, y, rfl, hy, ty, first⟩
        refine ⟨i + 1, y, by omega, hy, ty, fun k z hk hz => ?_⟩
        cases k with
        | zero => simp at hz; subst hz; simpa using t
        | succ k => exact first k z (by omega) hz
      · rintro ⟨i, y, rfl, hy, ty, first⟩
        cases i with
        | zero => simp at hy; subst hy; exact absurd ty t
        | succ i => exact ⟨i, y, by omega, hy, ty, fun k z hk hz => first (k + 1) z (by omega) hz⟩

theorem indexWhere_eq_none {α : Type} {test : α → Bool} {n : Nat} {l : List α} :
    indexWhere test n l = none ↔ ∀ x ∈ l, test x = false := by
  induction l generalizing n with
  | nil => simp [indexWhere]
  | cons x xs ih =>
    unfold indexWhere
    split
    · rename_i t; simp [t]
    · rename_i t; simp [ih, t]

theorem modifyAt_of_some {α : Type} {l : List α} {i : Nat} {x : α} (f : α → α) (h : l[i]? = some x) :
    modifyAt l i f = l.set i (f x) := by
  induction l generalizing i with
  | nil => simp at h
  | cons y ys ih =>
    cases i with
    | zero => simp at h; simp [modifyAt, h]
    | succ i => simp at h; simp [modifyAt, ih h]

theorem mem_whenDue {b : Bool} {e i : Instr} : e ∈ whenDue b i ↔ b = true ∧ e = i := by unfold whenDue; split <;> simp_all

end Sys2Proof.Machine
end

