-- ==== Sys2Proof/Laws/Memory.lean ====
section
/-! SUPPORT. The addressed store of a bank: every memory operation keeps the canonical form, and what a byte reads after a
write of one byte, of successive bytes, and of a block. -/

namespace Sys2Proof.Machine

open Sys2Proof

/-! ### The canonical form -/

theorem Memory.wfFrom_cons {low a : Nat} {b : Byte} {m : Memory} :
    Memory.wfFrom low ((a, b) :: m) = true ↔
      (low ≤ a ∧ a < Memory.size ∧ b ≠ Memory.blank) ∧ Memory.wfFrom (a + 1) m = true := by
  simp [Memory.wfFrom]

/-- A canonical form that starts higher starts lower too. -/
theorem Memory.wfFrom_lower {low high : Nat} {m : Memory} (h : low ≤ high) (w : Memory.wfFrom high m = true) :
    Memory.wfFrom low m = true := by
  cases m with
  | nil => rfl
  | cons c m =>
    obtain ⟨a, b⟩ := c
    rw [Memory.wfFrom_cons] at w ⊢
    exact ⟨⟨h.trans w.1.1, w.1.2⟩, w.2⟩

theorem Memory.entry_wfFrom {low a : Nat} {b : Byte} {m : Memory} (hl : low ≤ a) (ha : a < Memory.size)
    (w : Memory.wfFrom (a + 1) m = true) : Memory.wfFrom low (Memory.entry a b m) = true := by
  unfold Memory.entry
  split
  · exact Memory.wfFrom_lower (by omega) w
  · rename_i h
    exact Memory.wfFrom_cons.2 ⟨⟨hl, ha, h⟩, w⟩

theorem Memory.write_wfFrom {m : Memory} {low a : Nat} {b : Byte} (hl : low ≤ a) (ha : a < Memory.size)
    (w : Memory.wfFrom low m = true) : Memory.wfFrom low (Memory.write m a b) = true := by
  induction m generalizing low with
  | nil => exact Memory.entry_wfFrom hl ha rfl
  | cons c m ih =>
    obtain ⟨x, y⟩ := c
    have w' := Memory.wfFrom_cons.1 w
    unfold Memory.write
    split
    · rename_i h
      exact Memory.entry_wfFrom hl ha (Memory.wfFrom_cons.2 ⟨⟨by simpa using h, w'.1.2⟩, w'.2⟩)
    · split
      · rename_i h₁ h
        simp only at h
        exact Memory.entry_wfFrom hl ha (h ▸ w'.2)
      · rename_i h₁ h₂
        simp only at h₁ h₂
        exact Memory.wfFrom_cons.2 ⟨w'.1, ih (by omega) w'.2⟩

/-- A write of one byte inside the bank keeps the canonical form. -/
theorem Memory.write_wf {m : Memory} {a : Nat} {b : Byte} (ha : a < Memory.size) (w : m.wf = true) :
    (Memory.write m a b).wf = true := Memory.write_wfFrom (Nat.zero_le a) ha w

/-- A write of successive bytes inside the bank keeps the canonical form. -/
theorem Memory.writeFrom_wf {l : List Byte} {m : Memory} {a : Nat} (ha : a + l.length ≤ Memory.size) (w : m.wf = true) :
    (Memory.writeFrom m a l).wf = true := by
  induction l generalizing m a with
  | nil => exact w
  | cons b l ih =>
    rw [List.length_cons] at ha
    exact ih (by omega) (Memory.write_wf (by omega) w)

/-- A block write keeps the canonical form (R16). -/
theorem Memory.writeBlock_wf {m : Memory} {k : Nat} {l : List Byte} (hk : k < 64) (hl : l.length = 64) (w : m.wf = true) :
    (Memory.writeBlock m k l).wf = true :=
  Memory.writeFrom_wf (by rw [hl]; show 64 * k + 64 ≤ 4096; omega) w

/-! ### Reading after writing -/

/-- Below its first entry a canonical form reads as unlisted. -/
theorem Memory.read_below {m : Memory} {low a : Nat} (ha : a < low) (w : Memory.wfFrom low m = true) :
    Memory.read m a = Memory.blank := by
  induction m generalizing low with
  | nil => rfl
  | cons c m ih =>
    obtain ⟨x, y⟩ := c
    have w' := Memory.wfFrom_cons.1 w
    have hx : x ≠ a := by omega
    simp only [Memory.read, if_neg hx]
    exact ih (by omega) w'.2

theorem Memory.read_entry {m : Memory} {a x : Nat} {b : Byte} (w : Memory.wfFrom (a + 1) m = true) :
    Memory.read (Memory.entry a b m) x = if x = a then b else Memory.read m x := by
  unfold Memory.entry
  by_cases hb : b = Memory.blank
  · rw [if_pos hb]
    split
    · rename_i h
      rw [h, hb]
      exact Memory.read_below (Nat.lt_succ_self a) w
    · rfl
  · rw [if_neg hb]
    by_cases h : x = a
    · simp [Memory.read, h]
    · simp [Memory.read, h, Ne.symm h]

/-- The byte written is read back, and every other byte reads as before. -/
theorem Memory.read_writeFromLow {m : Memory} {low a x : Nat} {b : Byte} (w : Memory.wfFrom low m = true) :
    Memory.read (Memory.write m a b) x = if x = a then b else Memory.read m x := by
  induction m generalizing low with
  | nil => exact Memory.read_entry rfl
  | cons c m ih =>
    obtain ⟨u, y⟩ := c
    have w' := Memory.wfFrom_cons.1 w
    unfold Memory.write
    split
    · rename_i h
      exact Memory.read_entry (Memory.wfFrom_cons.2 ⟨⟨by simpa using h, w'.1.2⟩, w'.2⟩)
    · split
      · rename_i h₁ h
        simp only at h
        rw [Memory.read_entry (h ▸ w'.2)]
        split
        · rfl
        · rename_i hx
          have : u ≠ x := by omega
          simp [Memory.read, this]
      · rename_i h₁ h₂
        simp only at h₁ h₂
        by_cases hux : u = x
        · have : x ≠ a := by omega
          simp [Memory.read, hux, this]
        · simp only [Memory.read, if_neg hux]
          exact ih w'.2

theorem Memory.read_write {m : Memory} {a x : Nat} {b : Byte} (w : m.wf = true) :
    Memory.read (Memory.write m a b) x = if x = a then b else Memory.read m x := Memory.read_writeFromLow w

/-- Successive bytes are read back from where they were written, and every other byte reads as before. -/
theorem Memory.read_writeFrom {l : List Byte} {m : Memory} {a x : Nat} (ha : a + l.length ≤ Memory.size) (w : m.wf = true) :
    Memory.read (Memory.writeFrom m a l) x =
      if a ≤ x ∧ x < a + l.length then l.getD (x - a) 0 else Memory.read m x := by
  induction l generalizing m a with
  | nil =>
    rw [if_neg (by simp)]
    rfl
  | cons b l ih =>
    rw [List.length_cons] at ha ⊢
    have key := ih (m := Memory.write m a b) (a := a + 1) (by omega) (Memory.write_wf (by omega) w)
    show Memory.read (Memory.writeFrom (Memory.write m a b) (a + 1) l) x = _
    rw [key, Memory.read_write w]
    by_cases hx : x = a
    · subst hx
      simp
    · by_cases hr : a + 1 ≤ x ∧ x < a + 1 + l.length
      · rw [if_pos hr, if_pos (by omega)]
        obtain ⟨d, rfl⟩ : ∃ d, x = a + 1 + d := ⟨x - (a + 1), by omega⟩
        rw [show a + 1 + d - (a + 1) = d by omega, show a + 1 + d - a = d + 1 by omega]
        simp
      · rw [if_neg hr, if_neg hx, if_neg (by omega)]

/-- A block written is read back, and every other byte of the bank reads as before (R16). -/
theorem Memory.read_writeBlock {m : Memory} {k x : Nat} {l : List Byte} (hk : k < 64) (hl : l.length = 64)
    (w : m.wf = true) :
    Memory.read (Memory.writeBlock m k l) x =
      if 64 * k ≤ x ∧ x < 64 * k + 64 then l.getD (x - 64 * k) 0 else Memory.read m x := by
  have h := Memory.read_writeFrom (l := l) (m := m) (a := 64 * k) (x := x)
    (by rw [hl]; show 64 * k + 64 ≤ 4096; omega) w
  rw [hl] at h
  exact h

/-- The contents of a bank as delivered are in canonical form. -/
theorem Memory.delivered_wf : Bank.delivered.contents.wf = true := rfl

end Sys2Proof.Machine
end

