-- ==== Sys2Proof/WellFormed.lean ====
section
/-! DEFINITION. Which commands are well formed: the operands lie in the ranges the spec gives the thing they name, so that
the command is one the line, an input or a timer can bring. -/

namespace Sys2Proof

/-- The microseconds past a millisecond (R38, R67). -/
def wfMicros (us : Nat) : Bool := decide (us < 1000)

/-- The bytes of a telegram as the receiver reads them: six header bytes, as many body bytes as the length field gives, and
two CRC bytes (R32). -/
def wfTelegram (bytes : List Byte) : Bool :=
  match bytes with
  | _ :: _ :: _ :: _ :: _ :: len :: rest => decide (rest.length = len.toNat + 2)
  | _ => false

/-- The arguments of PLAN BLOCK fit a body of at most 72 bytes, of which name and tag take two (R33, R47). -/
def wfArgs (args : List Byte) : Bool := decide (args.length ≤ 70)

/-- A current the current sense can read, 0..5000 mA (00 Connections and supply). -/
def wfCurrents (currents : Vector Nat 12) : Bool := (List.finRange 12).all fun i => decide (currents[i] ≤ 5000)

/-- A well-formed command: every operand in the range the spec gives it. -/
def Instr.wf : Instr → Bool
  | .telegramReceived _ bytes us => wfTelegram bytes && wfMicros us
  | .planBlock _ args => wfArgs args
  | .dpSilenceDeadline dp => decide (dp < 48)
  | .headChannelEdge _ _ _ us => wfMicros us
  | .startTimeTimer a => decide (a < 8)
  | .standingDeadline a => decide (a < 8)
  | .lampSamplePoint c => wfCurrents c
  | _ => true

end Sys2Proof
end

