-- ==== Sys2Proof/Tests/Slice0.lean ====
section
/-! SUPPORT. The tests of the model: ill-formed commands refused, the check codes on their standard text, one step of many
commands on a small state, and for every statement with hypotheses a state and operands that meet them, clause by clause. -/

namespace Sys2Proof.Tests

open Sys2Proof Sys2Proof.Machine

set_option Elab.async false

/-! ### Well-formed commands -/

theorem test_wf_micros : (Instr.headChannelEdge 0 .a true 999).wf = true ∧ (Instr.headChannelEdge 0 .a true 1000).wf = false := by
  decide

theorem test_wf_telegram_length : (Instr.telegramReceived .box [1, 0, 4, 0, 0, 2, 0x16, 9, 0, 0] 0).wf = true ∧
    (Instr.telegramReceived .box [1, 0, 4, 0, 0, 2, 0x16, 0, 0] 0).wf = false ∧
    (Instr.telegramReceived .box [1, 0, 4, 0, 0] 0).wf = false := by decide

theorem test_wf_telegram_micros : (Instr.telegramReceived .box [1, 0, 4, 0, 0, 0, 0, 0] 1000).wf = false := by decide

theorem test_wf_plan_block : (Instr.planBlock 1 (List.replicate 70 0)).wf = true ∧
    (Instr.planBlock 1 (List.replicate 71 0)).wf = false := by decide

theorem test_wf_dp : (Instr.dpSilenceDeadline 47).wf = true ∧ (Instr.dpSilenceDeadline 48).wf = false := by decide

theorem test_wf_approach : (Instr.startTimeTimer 7).wf = true ∧ (Instr.startTimeTimer 8).wf = false ∧
    (Instr.standingDeadline 7).wf = true ∧ (Instr.standingDeadline 8).wf = false := by decide

theorem test_wf_currents : (Instr.lampSamplePoint (Vector.replicate 12 5000)).wf = true ∧
    (Instr.lampSamplePoint (Vector.replicate 12 5001)).wf = false := by decide

/-! ### The layouts of the line -/

/-- The text on which check codes are published. -/
def digits : List Byte := [0x31, 0x32, 0x33, 0x34, 0x35, 0x36, 0x37, 0x38, 0x39]

theorem test_crc16_of_the_digits : crc16 digits = 0x29B1#16 := by decide +kernel
theorem test_crc32_of_the_digits : crc32 digits = 0xCBF43926#32 := by decide +kernel

/-- REPORTS START of the box, tag 9: header, name and tag, with the check code that the layout gives. -/
def reportsStartTelegram : Telegram := ⟨1, 0, 4, 0, 0, [2, 9]⟩

theorem test_frame_reads_back : Telegram.check ((frameOf reportsStartTelegram).drop 1) = some reportsStartTelegram := by decide +kernel
theorem test_frame_with_a_bit_wrong : Telegram.check ((frameOf { reportsStartTelegram with dest := 2 }).drop 1) ≠
    some reportsStartTelegram := by decide +kernel
theorem test_count_reads_back : countOf (countBytes ⟨7, 4095, 1, .degraded, true⟩) = some ⟨7, 4095, 1, .degraded, true⟩ := by
  decide +kernel

/-! ### START -/

theorem test_reset_is_start_of_delivered_part : startPart State.reset = State.reset := by decide +kernel

/-! ### A small crossing: three DPs, an approach and an island section, one approach, one light group, two machines -/

def lampLimits : LampLimits := ⟨200, 900⟩
def presentGroup : GroupEntry := ⟨true, lampLimits, lampLimits, lampLimits⟩
def absentGroup : GroupEntry := { presentGroup with present := false }
def entryMachine : MachineEntry := ⟨true, .entry, 2000, 9000⟩
def exitMachine : MachineEntry := ⟨true, .exit, 2000, 9000⟩
def absentMachine : MachineEntry := ⟨false, .entry, 2000, 9000⟩

def smallPlan : Plan :=
  { planId := 310, version := 5, remotePermitted := true, panelFitted := true, testPermitted := true, audibleFitted := true,
    advisory := true, info := true, pminHalf := 4, lead := 30000, leadMin := 20000, tAmber := 3000, tRed := 6000,
    tExit := 8000, tZone := 15000, tMinOpen := 10000, tRaiseAllow := 6000, tStand := 60000, vLine := 556, vMin := 28,
    vLimit := 700, flashHalf := 500, silence := 2000, pmax := 400, tDrain := 10000, w2 := 4, w1 := 2, w0 := 1,
    dps := [⟨.line, .box, 61, 0, 0⟩, ⟨.head, .localHead, 131, 3, 0⟩, ⟨.line, .field, 62, 0, 0⟩],
    sects := [⟨14, 0, .approach, true, [⟨0, .inc⟩, ⟨1, .dec⟩]⟩, ⟨15, 0, .island, true, [⟨1, .inc⟩, ⟨2, .dec⟩]⟩],
    approaches := [⟨0, .inc, [⟨0, 24000⟩, ⟨1, 18000⟩], [0], 2, false, 0⟩],
    groups := #v[presentGroup, absentGroup, absentGroup, absentGroup],
    machines := #v[entryMachine, exitMachine, absentMachine, absentMachine] }

def liveDp : DpRec := { DpRec.fresh .box 2000 with state := .live, baseline := true }
def clearSect : SectRec := { SectRec.fresh 0 .start with state := .clear }
def idleDemand : DemandRec := { DemandRec.start with state := .idle, forced := false, ts := none }

/-- The bytes of the small plan from its tables of the encoding, the CRC-32 in place (R51, R52). -/
def smallImage : List Byte :=
  bytes2 310 ++ [5, 0x3F] ++ bytes2 199 ++ [0x58, 0xF9, 0x14, 0xE1] ++ [3, 2, 1, 4] ++ bytes2 30000 ++ bytes2 20000 ++
  bytes2 3000 ++ bytes2 6000 ++ bytes2 8000 ++ bytes2 15000 ++ bytes2 10000 ++ bytes2 6000 ++ bytes4 60000 ++ bytes2 556 ++
  bytes2 28 ++ bytes2 700 ++ bytes2 500 ++ bytes2 2000 ++ bytes2 400 ++ bytes2 10000 ++ [4, 2, 1] ++
  [1, 0, 200, 3, 132, 0, 200, 3, 132, 0, 200, 3, 132] ++ [0, 0, 200, 3, 132, 0, 200, 3, 132, 0, 200, 3, 132] ++
  [0, 0, 200, 3, 132, 0, 200, 3, 132, 0, 200, 3, 132] ++ [0, 0, 200, 3, 132, 0, 200, 3, 132, 0, 200, 3, 132] ++
  ([1, 0] ++ bytes2 2000 ++ bytes2 9000) ++ ([1, 1] ++ bytes2 2000 ++ bytes2 9000) ++
  ([0, 0] ++ bytes2 2000 ++ bytes2 9000) ++ ([0, 0] ++ bytes2 2000 ++ bytes2 9000) ++
  [0, 0, 61, 0, 0, 1, 2, 131, 3, 0, 0, 1, 62, 0, 0] ++ [14, 0, 0, 1, 2, 0, 0, 1, 1, 0, 0, 0, 0] ++
  [15, 0, 1, 1, 2, 1, 0, 2, 1, 0, 0, 0, 0] ++
  ([0, 0, 2, 0] ++ bytes2 24000 ++ [1] ++ bytes2 18000 ++ List.replicate 12 0 ++ [1, 0, 0, 0, 0, 0, 0, 2, 0, 0])

theorem test_small_plan_decodes : planOf smallImage = smallPlan := by decide +kernel
set_option maxRecDepth 40000 in
theorem test_small_plan_is_checked : checkImage (some 1) smallImage = .checked := by decide +kernel
/-- A machine proved up, its detectors agreeing. -/
def upMachine : MachineRec :=
  { MachineRec.noPlanLowering with state := .upProved, commanded := some .raise, drive := none, leaveBy := none, travelBy := none, up := true, boom := true }

/-- OPEN and quiet under the small plan, both ports DOWN. -/
def openState : State :=
  { State.reset with
    store := { State.reset.store with bankA := ⟨[], .active, .none, 310, 5⟩, plan := some smallPlan }
    dps := [liveDp, { liveDp with port := .localHead }, liveDp]
    sects := [clearSect, clearSect]
    demands := [idleDemand]
    crossing := { State.reset.crossing with state := .opened, lastDir := Vector.replicate 4 (some .raise), demandView := [⟨.idle, false, .none⟩], islandView := [⟨0, true⟩] }
    lights := { State.reset.lights with command := .dark, groups := Vector.replicate 4 ⟨Lamp.start, Lamp.start, Lamp.start⟩ }
    barrier := ⟨Vector.replicate 4 upMachine, State.reset.barrier.zone⟩
    faults := FaultTable.start true true }

/-- The state a command leads to. -/
def run (c : Instr) (s : State) : State :=
  match exec c s with
  | .next t => t
  | _ => s

def inState (c : CrossingState) : State := { openState with crossing := { openState.crossing with state := c } }
def ownedBy (o : Owner) (s : State) : State := { s with authority := { s.authority with owner := o } }
def atTime (t : Time) (s : State) : State := { s with clock := t }
def portState (p : Port) (st : PortState) (s : State) : State := s.onPort p fun r => { r with state := st }
def standbyState (st : BankState) (pending : Bool) : State :=
  { openState with store := { openState.store with bankB := ⟨[], st, .none, 310, 6⟩, pending := pending } }
def writing : State :=
  { standbyState .loading false with store := { (standbyState .loading false).store with write := some ⟨63, 9, List.replicate 64 7, 0⟩ } }

/-! ### Hypotheses met: the step and the laws -/

theorem test_witness_IdleStep : openState.pending = [] := by decide +kernel

/-- The small crossing at a clock value, with nothing due for a while. -/
def quietAt (now : Time) : State :=
  { openState with
    clock := now
    lights := { openState.lights with began := now }
    heads := openState.heads.set 3 { openState.heads[(3 : Fin 8)] with lastSent := now }
    dps := openState.dps.map fun r => { r with deadline := none } }

/-- Machine 0 with a record changed, and its drive on downward. -/
def movingBy (f : MachineRec → MachineRec) : State :=
  (quietAt 0).setMachine 0 (f { upMachine with state := .lowering, drive := some .lower })

/-- For each event of the clock a state at 0 in which what it times comes at `t`. -/
def comingAt (t : Time) : List (State × Instr) :=
  let q := quietAt 0
  let onBox (f : PortRec → PortRec) : State := q.onPort .box f
  let onField (f : PortRec → PortRec) : State := q.onPort .field f
  let head (f : HeadRec → HeadRec) : State := q.onHead 3 f
  let crossing (f : CrossingRec → CrossingRec) : State := { q with crossing := f q.crossing }
  let demand (d : DemandRec) : State := { q with demands := [d] }
  let record (f : FaultRec → FaultRec) : State :=
    { q with faults := { q.faults with ordinary := q.faults.ordinary.set 0 (some (f (FaultRec.created 0 10000 .zoneHold ⟨.zone, 0⟩ .urgent))) } }
  [(onBox fun r => { r with state := .checking, lastActivity := t - 200 }, .portActivityTimeout .box),
   (onField fun r => { r with state := .active, lastActivity := t - 200 }, .portActivityTimeout .field),
   (onField fun r => { r with state := .checking, checkStart := t - 2000 }, .checkingComplete .field),
   (onBox fun r => { r with lineErrors := true, errorTimes := [t - 10001, t - 10000] }, .errorTimeExpiry .box),
   (onField fun r => { r with state := .isolated, lineLoop := true, loopTimes := [t - 10000] }, .loopTimeExpiry .field),
   (onBox fun r => { r with sending := some ⟨[1, 2], t, 999⟩ }, .transmitEnd .box),
   ({ q with store := { q.store with write := some ⟨63, 9, List.replicate 64 7, t - 40⟩ } }, .planBlockWriteComplete),
   ({ q with dps := [liveDp, liveDp, { liveDp with deadline := some t }] }, .dpSilenceDeadline 2),
   (head fun r => { r with a := ⟨true, some ⟨t - 400, 0⟩, 400000, none, none⟩ }, .headStuck 3 .a),
   (head fun r => { r with oneChannel := [t - 60001, t - 60000], sentHealth := .degraded }, .oneChannelExpiry 3),
   (head fun r => { r with lastSent := t - 500 }, .headHeartbeat 3),
   (quietAt (5000 - t), .restartedFlagClears),
   (demand { idleDemand with state := .predicted, ts := some t }, .startTimeTimer 0),
   (demand { idleDemand with state := .warning, standing := some t }, .standingDeadline 0),
   (crossing fun c => { c with stateTimer := some t }, .stateTimerDeadline),
   (crossing fun c => { c with exitTimer := some t }, .exitTimerDeadline),
   ({ q with authority := { q.authority with step := .lampTest, stepEnd := some t } }, .lampTestEnd),
   (q.setZone ⟨true, true, some 0, some t, false⟩, .holdDeadline),
   (movingBy fun r => { r with leaveBy := some t, travelBy := some 9000 }, .leaveDeadline 0),
   (movingBy fun r => { r with leaveMet := true, travelBy := some t }, .travelDeadline 0),
   ({ q with lights := { q.lights with began := t - 500 } }, .halfPeriodEnd),
   (record fun r => { r with drain := some t }, .drainDeadline 0),
   (record fun r => { r with report := .sent, ackBy := some t }, .ackDeadline 0),
   ({ onBox (fun r => { r with state := .active }) with builder := ⟨none, some (t - 1000)⟩ }, .statusPeriod)]

theorem test_each_deadline_brings_its_event_when_it_is_reached :
    (∀ x ∈ (comingAt 1).take 12, x.1.advance.dueEvents.filter (fun e => decide (e ≠ .dpSilenceDeadline 0 ∧ e ≠ .dpSilenceDeadline 1)) = [x.2]) ∧
    (∀ x ∈ (comingAt 1).drop 12, x.1.advance.dueEvents = [x.2]) ∧ (∀ x ∈ comingAt 2, x.1.advance.dueEvents = []) ∧
    (∀ x ∈ comingAt 1, x.1.pending = []) := by decide +kernel

theorem test_a_channel_is_found_stuck_at_pmax (c : Channel) :
    ((quietAt 398).onHead 3 (HeadRec.onChannel c fun _ => ⟨true, some ⟨0, 0⟩, 400000, none, none⟩)).advance.dueEvents = [] ∧
    ((quietAt 399).onHead 3 (HeadRec.onChannel c fun _ => ⟨true, some ⟨0, 0⟩, 400000, none, none⟩)).advance.dueEvents =
      [.headStuck 3 c] ∧
    ((quietAt 399).onHead 3 (HeadRec.onChannel c fun _ => ⟨true, some ⟨0, 1⟩, 400000, none, none⟩)).advance.dueEvents = [] ∧
    ((quietAt 400).onHead 3 (HeadRec.onChannel c fun _ => ⟨true, some ⟨0, 1⟩, 400000, none, none⟩)).advance.dueEvents =
      [.headStuck 3 c] := by
  cases c <;> decide +kernel

theorem test_witness_SelectionMoves : (Instr.planCheck 1 ≠ .start) ∧ (∀ tag i v, Instr.planCheck 1 ≠ .planActivate tag i v) ∧
    (∀ p b us, Instr.planCheck 1 ≠ .telegramReceived p b us) ∧ (∀ h k b us, Instr.planCheck 1 ≠ .headChannelEdge h k b us) ∧
    (∀ h k, Instr.planCheck 1 ≠ .headStuck h k) ∧ (∀ h, Instr.planCheck 1 ≠ .oneChannelExpiry h) ∧
    (∀ h, Instr.planCheck 1 ≠ .headHeartbeat h) ∧ (Instr.planCheck 1 ≠ .restartedFlagClears) ∧
    (∀ tag n, Instr.planCheck 1 ≠ .resetEquipmentHead tag n) ∧
    ∃ t, exec (.headHeartbeat 3) (standbyState .checked true) = .next t := by
  refine ⟨by decide, ?_, ?_, ?_, ?_, ?_, ?_, by decide, ?_, _, rfl⟩ <;> intros <;> exact Instr.noConfusion

theorem test_witness_StepKeepsThePlanStore :
    BanksLaw writing.store ∧ StoreLaw writing.store ∧ (∃ t, step writing = .next t) := by
  refine ⟨⟨by decide +kernel, by decide +kernel, ?_⟩, by unfold StoreLaw; decide +kernel, _, rfl⟩
  intro w h
  have : w = ⟨63, 9, List.replicate 64 7, 0⟩ := by simpa [writing, standbyState] using h.symm
  subst this
  decide

theorem test_witness_StepKeepsTheSectionLaw :
    (∀ r ∈ openState.sects, SectLaw r) ∧ (∃ t, step openState = .next t) := by
  refine ⟨?_, _, rfl⟩
  intro r h
  have : r = clearSect := by
    have h' : r ∈ [clearSect, clearSect] := h
    simpa using h'
  subst this
  unfold SectLaw
  decide

theorem test_witness_StepKeepsTheRedsApart : LightsLaw openState.lights ∧ (∃ t, step openState = .next t) := by
  refine ⟨?_, _, rfl⟩
  unfold LightsLaw LampLaw
  decide +kernel

theorem test_witness_StepKeepsTheMachineLaw :
    (∀ i : Fin 4, MachineLaw openState.barrier.machines[i]) ∧ (∃ t, step openState = .next t) := by
  refine ⟨?_, _, rfl⟩
  intro i
  have : openState.barrier.machines[i] = upMachine := by fin_cases i <;> rfl
  rw [this]
  unfold MachineLaw
  refine ⟨?_, ?_, by decide, by decide, ?_, ?_, by decide, by decide⟩
  · intro d h
    exact absurd h (by simp [upMachine])
  · intro d
    cases d <;> decide
  · intro d h
    exact absurd h (by simp [upMachine])
  · intro d h
    exact absurd h (by simp [upMachine])

theorem test_witness_StepKeepsTheClosureInvariant :
    ClosureInvariant openState ∧ (∃ t, step openState = .next t) := by
  refine ⟨?_, _, rfl⟩
  unfold ClosureInvariant RecordsMatchPlan ViewsLaw CausesLaw
  decide +kernel

theorem test_witness_StepKeepsTheSequenceLaw : SequenceLaw openState ∧ (∃ t, step openState = .next t) := by
  refine ⟨?_, _, rfl⟩
  unfold SequenceLaw TimersLaw
  exact ⟨by decide +kernel, ⟨rfl, rfl⟩, by decide +kernel⟩

/-- A request of the signal box at the front of the queue. -/
def requested : State := { openState with pending := [.remoteRequest 1] }

theorem test_witness_OwnerChanges : requested.pending.head? ≠ some .start ∧
    ∃ t, step requested = .next t ∧ t.authority.owner ≠ requested.authority.owner := ⟨by decide, _, rfl, by decide +kernel⟩

theorem test_witness_StepKeepsQueuesAndCounters :
    QueuesLaw openState.lif ∧ CountersLaw openState ∧ HeldLaw openState ∧ (∃ t, step openState = .next t) := by
  refine ⟨?_, ?_, ?_, _, rfl⟩
  · unfold QueuesLaw
    decide +kernel
  · unfold CountersLaw
    decide +kernel
  · unfold HeldLaw
    decide +kernel

/-! ### Hypotheses met: the Fault Table -/

/-- A table whose slot 0 alone is taken. -/
def oneRecord (r : FaultRec) : FaultTable :=
  { FaultTable.start true true with
    ordinary := (Vector.replicate 63 none).set 0 (some r)
    window := if r.report = .sent then [0] else [] }

theorem oneRecord_get_zero (r : FaultRec) : (oneRecord r).get 0 = some r := by simp [oneRecord, FaultTable.get]

theorem oneRecord_get_ordinary (r : FaultRec) {n : Nat} (h : n < 63) (h0 : n ≠ 0) : (oneRecord r).get n = none := by
  simp [oneRecord, FaultTable.get, h, h0.symm]

theorem oneRecord_get_overflow (r : FaultRec) : (oneRecord r).get 63 = some FaultRec.overflowUnused := by
  simp [oneRecord, FaultTable.get, FaultTable.start]

theorem oneRecord_window (r : FaultRec) : (oneRecord r).window = if r.report = .sent then [0] else [] := rfl

theorem overflowUnused_law : FaultRecLaw FaultRec.overflowUnused := by unfold FaultRecLaw; decide

theorem oneRecord_get_cases {r : FaultRec} (n : Nat) (x : FaultRec) (hx : (oneRecord r).get n = some x) :
    n = 0 ∧ x = r ∨ n = 63 ∧ x = FaultRec.overflowUnused := by
  by_cases h0 : n = 0
  · subst h0
    rw [oneRecord_get_zero] at hx
    exact .inl ⟨rfl, (Option.some.inj hx).symm⟩
  · by_cases h63 : n < 63
    · rw [oneRecord_get_ordinary r h63 h0] at hx
      exact absurd hx (by simp)
    · by_cases e : n = 63
      · subst e
        rw [oneRecord_get_overflow] at hx
        exact .inr ⟨rfl, (Option.some.inj hx).symm⟩
      · rw [get_beyond _ (by omega)] at hx
        exact absurd hx (by simp)

/-- One record that keeps its own law makes a table that keeps the law of the table. -/
theorem oneRecord_law {r : FaultRec} (h : FaultRecLaw r) : FaultTableLaw (oneRecord r) := by
  have cases := oneRecord_get_cases (r := r)
  refine ⟨?_, ?_, ?_, ?_, ?_⟩
  · intro n x hx
    rcases cases n x hx with ⟨_, rfl⟩ | ⟨_, rfl⟩
    · exact h
    · exact overflowUnused_law
  · intro i j x y hx hy _ _
    rw [← get_ordinary] at hx hy
    rcases cases _ _ hx with ⟨hi, _⟩ | ⟨hi, _⟩
    · rcases cases _ _ hy with ⟨hj, _⟩ | ⟨hj, _⟩
      · exact Fin.ext (hi.trans hj.symm)
      · exact absurd j.isLt (by omega)
    · exact absurd i.isLt (by omega)
  · rw [oneRecord_window]
    split <;> simp
  · rw [oneRecord_window]
    split <;> simp
  · intro n
    rw [oneRecord_window]
    constructor
    · intro hn
      by_cases hs : r.report = .sent
      · rw [if_pos hs] at hn
        have : n = 0 := by simpa using hn
        subst this
        exact ⟨r, oneRecord_get_zero r, hs⟩
      · rw [if_neg hs] at hn
        exact absurd hn (by simp)
    · rintro ⟨x, hx, hs⟩
      rcases cases n x hx with ⟨rfl, rfl⟩ | ⟨_, rfl⟩
      · rw [if_pos hs]
        simp
      · exact absurd hs (by decide)

/-- ZONE_HOLD ACTIVE and reported, its ack deadline at 5000, its level at its highest without a latch. -/
def sentRecord : FaultRec :=
  { FaultRec.created 0 10000 .zoneHold ⟨.zone, 0⟩ .urgent with report := .sent, ackBy := some 5000, level := 12 }

/-- The same record latched, ACKED and with its last drain running. -/
def latchedRecord : FaultRec := { sentRecord with report := .acked, ackBy := none, latched := true, level := 1 }

/-- The same record ACKED and INACTIVE: spent. -/
def spentRecord : FaultRec := { sentRecord with report := .acked, ackBy := none, active := false, srcActive := false }

/-- The same record waiting to be reported. -/
def pendingRecord : FaultRec := { sentRecord with report := .pending, ackBy := none }

theorem sentRecord_law : FaultRecLaw sentRecord := by unfold FaultRecLaw; decide
theorem latchedRecord_law : FaultRecLaw latchedRecord := by unfold FaultRecLaw; decide
theorem spentRecord_law : FaultRecLaw spentRecord := by unfold FaultRecLaw; decide

def withTable (t : FaultTable) (s : State) : State := { s with faults := t }

theorem test_witness_StepKeepsTheFaultTableLaw :
    FaultTableLaw (withTable (oneRecord sentRecord) openState).faults ∧
      (∃ t, step (withTable (oneRecord sentRecord) openState) = .next t) := ⟨oneRecord_law sentRecord_law, _, rfl⟩

theorem test_witness_ClearsActOnTheRecord :
    (FaultTableLaw (oneRecord latchedRecord) ∧ (oneRecord latchedRecord).ordinary[(0 : Fin 63)] = some latchedRecord ∧
      latchedRecord.code = .zoneHold ∧ latchedRecord.source = ⟨.zone, 0⟩ ∧ latchedRecord.latched = true) ∧
    (FaultTableLaw (oneRecord sentRecord) ∧ (oneRecord sentRecord).ordinary[(0 : Fin 63)] = some sentRecord ∧
      sentRecord.latched = false ∧ sentRecord.active = true) ∧
    (FaultTableLaw (oneRecord spentRecord) ∧ (oneRecord spentRecord).ordinary[(0 : Fin 63)] = some spentRecord ∧
      spentRecord.latched = false ∧ spentRecord.active = false) :=
  ⟨⟨oneRecord_law latchedRecord_law, by decide +kernel, by decide, by decide, by decide⟩,
    ⟨oneRecord_law sentRecord_law, by decide +kernel, by decide, by decide⟩,
    ⟨oneRecord_law spentRecord_law, by decide +kernel, by decide, by decide⟩⟩

theorem test_witness_AckReport : (63 < (64 : Byte).toNat) ∧
    ((63 : Byte).toNat ≤ 63 ∧ (1 : Byte).toNat ≤ 63 ∧ (oneRecord sentRecord).get (1 : Byte).toNat = none) ∧
    ((oneRecord sentRecord).get (0 : Byte).toNat = some sentRecord ∧ sentRecord.change ≠ 1) ∧
    ((oneRecord latchedRecord).get (0 : Byte).toNat = some latchedRecord ∧ latchedRecord.change = 0 ∧
      latchedRecord.report = .acked) ∧
    (sentRecord.change = 0 ∧ sentRecord.report ≠ .acked ∧ sentRecord.latched = false ∧ (0 : Byte).toNat < 63) := by
  decide +kernel

/-- The latched record at level 0 and SENT: its acknowledgement releases it. -/
def releasedRecord : FaultRec := { sentRecord with latched := true, level := 0, drain := none }

theorem releasedRecord_law : FaultRecLaw releasedRecord := by unfold FaultRecLaw; decide

theorem test_witness_AckReport_law : FaultTableLaw (oneRecord sentRecord) ∧ FaultTableLaw (oneRecord releasedRecord) ∧
    FaultTableLaw (oneRecord { releasedRecord with level := 1, drain := some 10000 }) ∧
    (oneRecord sentRecord).overflow.srcActive = false :=
  ⟨oneRecord_law sentRecord_law, oneRecord_law releasedRecord_law, oneRecord_law (by unfold FaultRecLaw; decide), by decide +kernel⟩

theorem test_witness_AckReport_released :
    ((oneRecord releasedRecord).get (0 : Byte).toNat = some releasedRecord ∧ releasedRecord.change = 0 ∧
      releasedRecord.report ≠ .acked ∧ releasedRecord.latched = true ∧ releasedRecord.level = 0 ∧ (0 : Byte).toNat < 63) ∧
    (({ releasedRecord with level := 1 } : FaultRec).latched = true ∧ 0 < ({ releasedRecord with level := 1 } : FaultRec).level) ∧
    (run (.ackReport 1 0 0) (withTable (oneRecord releasedRecord) openState)).faults.get 0 =
      some { releasedRecord with latched := false, change := 1, report := .pending, ackBy := none } := by decide +kernel

/-- A waiting telegram of the part. -/
def waiting : Waiting := ownTelegram 1 0 (.reply 1 .done .none)

/-- Both ports ACTIVE, with telegrams in the classes as given. -/
def queued (q3 q2 q1 q0 : List Waiting) (credit : Nat) : State :=
  let s := portState .box .active (portState .field .active openState)
  { s with lif := { s.lif with q3 := q3, q2 := q2, q1 := q1, q0 := q0, qf := q3, credit2 := credit, credit1 := credit, credit0 := credit } }

theorem test_witness_Finish_classes :
    (openState.lif.box.state ≠ .active ∧ openState.lif.qf = []) ∧
    (∀ s ∈ [queued [waiting] [] [] [] 0, queued [] [waiting] [] [] 1, queued [] [waiting] [waiting] [waiting] 0,
      queued [] [] [waiting] [] 1, queued [] [] [] [waiting] 1, queued [] [] [] [] 1],
      s.lif.box.state = .active ∧ s.lif.box.sending = none ∧ s.lif.field.state = .active ∧ s.lif.field.sending = none ∧
      0 < s.weight2 ∧ 0 < s.weight1 ∧ 0 < s.weight0) := by decide +kernel

/-- A waiting STATUS of the part. -/
def waitingStatus : Waiting := ⟨0, 1, .status openState.statusNow, .own⟩

theorem test_witness_Finish_status :
    ((queued [] [] [] [] 1).builder.last ≠ some (queued [] [] [] [] 1).statusNow ∧ (queued [] [] [] [] 1).lif.station = some 1 ∧
      (queued [] [] [] [] 1).lif.box.state = .active ∧ openState.lif.box.state ≠ .active) ∧
    (waitingStatus ∈ (queued [waitingStatus] [] [] [] 1).lif.q3 ∧
      16 ≤ (queued (List.replicate 16 waiting) [] [] [] 1).lif.q3.length ∧
      (queued (List.replicate 15 waiting) [] [] [] 1).lif.q3.length < 16) := by decide +kernel

theorem test_changed_content_is_built_once :
    ((queued [waiting, waitingStatus] [] [] [] 1).statusIfChanged.lif.q3.map Waiting.isStatus = [false, true]) ∧
    (queued [] [] [] [] 1).statusIfChanged.statusIfChanged = (queued [] [] [] [] 1).statusIfChanged := by decide +kernel

/-- The report process may take the one pending record. -/
def reporting : State := { queued [] [] [] [] 1 with faults := oneRecord pendingRecord }

theorem test_witness_Finish_report :
    (reporting.lif.station = some 1 ∧ reporting.faults.process = .running ∧ reporting.faults.window.length < 4 ∧
      reporting.lif.box.state = .active ∧ reporting.lif.q2.length < 16 ∧ reporting.faults.get 0 = some pendingRecord ∧
      pendingRecord.report = .pending ∧ reporting.faults.enabled pendingRecord.cls = true ∧ openState.lif.box.state ≠ .active) ∧
    ∀ (rank : FaultClass → Nat) (m : Nat) (x : FaultRec), reporting.faults.get m = some x → x.report = .pending →
      rank x.cls < rank pendingRecord.cls ∨ (x.cls = pendingRecord.cls ∧ 0 ≤ m) := by
  refine ⟨by decide +kernel, fun rank m x h hp => ?_⟩
  rcases oneRecord_get_cases m x h with ⟨_, rfl⟩ | ⟨_, rfl⟩
  · exact .inr ⟨rfl, Nat.zero_le _⟩
  · exact absurd hp (by decide)

theorem test_witness_ReportCommands :
    (FaultTableLaw (withTable (oneRecord sentRecord) openState).faults ∧
      NoActivation (withTable (oneRecord sentRecord) openState)) ∧
    (1 < (2 : Byte).toNat) ∧ ((1 : Byte).toNat ≤ 1 ∧ (0 : Byte).toNat ≤ 1) :=
  ⟨⟨oneRecord_law sentRecord_law, rfl⟩, by decide, by decide⟩

/-- Every ordinary slot taken by a record. -/
def fullOf (r : Fin 63 → FaultRec) : FaultTable := { FaultTable.start true true with ordinary := Vector.ofFn fun i => some (r i) }

/-- LIST_FULL active, with one loss counted. -/
def lossRecord : FaultRec := FaultRec.overflowUnused.raised 0 10000 .urgent

theorem test_witness_ClearAcked_overflow :
    (lossRecord.srcActive = true ∧ lossRecord.active = true ∧ lossRecord.report ≠ .acked ∧ lossRecord.latched = false ∧
      ({ fullOf (fun _ => sentRecord) with overflow := lossRecord } : FaultTable).hasRoom = false) ∧
    (oneRecord sentRecord).hasRoom = true ∧
    (FaultRec.overflowUnused.report = .acked ∧ FaultRec.overflowUnused.active = false) ∧
    (({ lossRecord with latched := true } : FaultRec).latched = true ∧
      ({ lossRecord with srcActive := false } : FaultRec).srcActive = false) := by decide +kernel

theorem test_loss_raises_list_full : ((fullOf fun _ => sentRecord).raise 0 10000 .portDown ⟨.port, 0⟩ .urgent).overflow = lossRecord := by
  decide +kernel

/-- A SENT record whose deadlines both fall at 5000, with two timeouts counted. -/
def dueTable : FaultTable := { oneRecord { sentRecord with drain := some 5000 } with timeouts := 2 }

theorem dueTable_law : FaultTableLaw dueTable :=
  oneRecord_law (r := { sentRecord with drain := some 5000 }) (by unfold FaultRecLaw; decide)

theorem test_witness_RecordDeadlines : FaultTableLaw dueTable ∧
    ((oneRecord sentRecord).get (0 : Fin 64).val = some sentRecord ∧ due sentRecord.drain 4999 = false ∧
      due sentRecord.ackBy 4999 = false) ∧
    (dueTable.get (0 : Fin 64).val = some { sentRecord with drain := some 5000 } ∧ due (some 5000) 5000 = true ∧
      1 < sentRecord.level ∧ sentRecord.report = .sent ∧ 2 ≤ dueTable.timeouts) ∧
    ((oneRecord latchedRecord).get (0 : Fin 64).val = some latchedRecord ∧ due latchedRecord.drain 10000 = true ∧
      latchedRecord.latched = true ∧ latchedRecord.level ≤ 1 ∧ latchedRecord.report = .acked) ∧
    (FaultTableLaw (oneRecord sentRecord) ∧ due sentRecord.ackBy 5000 = true ∧ (oneRecord sentRecord).timeouts < 2) :=
  ⟨dueTable_law, by decide +kernel, by decide +kernel, by decide +kernel, oneRecord_law sentRecord_law, by decide,
    by decide +kernel⟩

theorem fullOf_get (r : Fin 63 → FaultRec) (n : Nat) (x : FaultRec) (h : (fullOf r).get n = some x) :
    (∃ i : Fin 63, n = i.val ∧ x = r i) ∨ (n = 63 ∧ x = FaultRec.overflowUnused) := by
  by_cases h63 : n < 63
  · left
    refine ⟨⟨n, h63⟩, rfl, ?_⟩
    have e : (fullOf r).get n = some (r ⟨n, h63⟩) := by simp [fullOf, FaultTable.get, h63]
    rw [e] at h
    exact (Option.some.inj h).symm
  · by_cases e : n = 63
    · subst e
      right
      exact ⟨rfl, by simpa [fullOf, FaultTable.get, FaultTable.start] using h.symm⟩
    · rw [get_beyond _ (by omega)] at h
      exact absurd h (by simp)

/-- A full table of records of their own sources, none of them SENT, keeps the law of the table. -/
theorem fullOf_law (r : Fin 63 → FaultRec) (h : ∀ i, FaultRecLaw (r i)) (hs : ∀ i, (r i).report ≠ .sent)
    (hd : ∀ i j, (r i).source = (r j).source → i = j) : FaultTableLaw (fullOf r) := by
  refine ⟨?_, ?_, by simp [fullOf, FaultTable.start], by simp [fullOf, FaultTable.start], ?_⟩
  · intro n x hx
    rcases fullOf_get r n x hx with ⟨i, _, rfl⟩ | ⟨_, rfl⟩
    · exact h i
    · exact overflowUnused_law
  · intro i j x y hx hy _ hsrc
    have ex : r i = x := by simpa [fullOf] using hx
    have ey : r j = y := by simpa [fullOf] using hy
    exact hd i j (by rw [ex, ey, hsrc])
  · intro n
    constructor
    · intro hn
      exact absurd hn (by simp [fullOf, FaultTable.start])
    · rintro ⟨x, hx, hp⟩
      rcases fullOf_get r n x hx with ⟨i, _, rfl⟩ | ⟨_, rfl⟩
      · exact absurd hp (hs i)
      · exact absurd hp (by decide)

/-- A spent record of a head, of the greatest age in slots 5 and 7. -/
def agedRecord (i : Fin 63) : FaultRec :=
  { spentRecord with source := ⟨.head, i.val⟩, age := if i = 5 ∨ i = 7 then 9 else 0 }

/-- A record of a head that is not spent. -/
def heldRecord (i : Fin 63) : FaultRec := { pendingRecord with source := ⟨.head, i.val⟩ }

/-- The overflow record replaced, neither of the two SENT, keeps the law of the table. -/
theorem overflow_law {t : FaultTable} {o : FaultRec} (h : FaultTableLaw t) (ht : t.overflow.report ≠ .sent) (ho : FaultRecLaw o)
    (hs : o.report ≠ .sent) : FaultTableLaw { t with overflow := o } := by
  obtain ⟨records, own, four, once, sent⟩ := h
  have below : ∀ n, n < 63 → FaultTable.get { t with overflow := o } n = t.get n := by
    intro n hn
    simp [FaultTable.get, hn]
  have last : FaultTable.get { t with overflow := o } 63 = some o := by simp [FaultTable.get]
  have last' : t.get 63 = some t.overflow := by simp [FaultTable.get]
  have cases : ∀ n x, FaultTable.get { t with overflow := o } n = some x → t.get n = some x ∨ n = 63 ∧ x = o := by
    intro n x hx
    rcases lt_trichotomy n 63 with hn | rfl | hn
    · exact .inl (by rw [← below n hn]; exact hx)
    · exact .inr ⟨rfl, by rw [last] at hx; exact (Option.some.inj hx).symm⟩
    · rw [get_beyond _ hn] at hx
      exact absurd hx (by simp)
  refine ⟨?_, own, four, once, fun n => (sent n).trans ⟨?_, ?_⟩⟩
  · intro n x hx
    rcases cases n x hx with h | ⟨_, rfl⟩
    · exact records n x h
    · exact ho
  · rintro ⟨x, hx, hp⟩
    refine ⟨x, ?_, hp⟩
    rcases lt_trichotomy n 63 with hn | rfl | hn
    · rw [below n hn]; exact hx
    · rw [last'] at hx; exact absurd hp (by rw [← Option.some.inj hx]; exact ht)
    · rw [get_beyond _ hn] at hx; exact absurd hx (by simp)
  · rintro ⟨x, hx, hp⟩
    rcases cases n x hx with h | ⟨_, rfl⟩
    · exact ⟨x, h, hp⟩
    · exact absurd hp hs

/-- A full table of which no slot can be had, its last record INACTIVE and PENDING, with the overflow record given. -/
def lossTable (o : FaultRec) : FaultTable :=
  { fullOf (fun i => if i = 62 then { heldRecord i with active := false, srcActive := false } else heldRecord i) with overflow := o }

theorem lossTable_law {o : FaultRec} (ho : FaultRecLaw o) (hs : o.report ≠ .sent) : FaultTableLaw (lossTable o) := by
  refine overflow_law (fullOf_law _ (fun i => ?_) (fun i => ?_) fun i j h => ?_) (by decide) ho hs
  · by_cases e : i = 62
    · subst e; unfold FaultRecLaw; decide
    · simp only [if_neg e]; unfold FaultRecLaw; simp [heldRecord, pendingRecord, sentRecord, FaultRec.created]
  · by_cases e : i = 62
    · subst e; decide
    · simp only [if_neg e]; exact nofun
  · have src : ∀ k : Fin 63, (if k = 62 then { heldRecord k with active := false, srcActive := false } else heldRecord k).source =
        ⟨.head, k.val⟩ := by
      intro k
      split <;> rfl
    have h' : (⟨.head, i.val⟩ : FaultSource) = ⟨.head, j.val⟩ := by rw [← src i, ← src j]; exact h
    exact Fin.ext (FaultSource.mk.inj h').2

theorem test_witness_AckReport_overflow :
    FaultTableLaw (lossTable lossRecord) ∧ FaultTableLaw (lossTable { lossRecord with latched := true }) ∧
    ((lossTable lossRecord).get (63 : Byte).toNat = some lossRecord ∧ lossRecord.report ≠ .acked ∧ lossRecord.latched = false ∧
      (lossTable lossRecord).overflow.srcActive = true ∧ (lossTable lossRecord).overflow.active = true ∧
      (lossTable lossRecord).hasRoom = false) ∧
    ((lossTable lossRecord).get (0 : Byte).toNat = some (heldRecord 0) ∧ (heldRecord 0).active = true ∧
      (heldRecord 0).report ≠ .acked) ∧
    ((lossTable lossRecord).get (62 : Byte).toNat = some { heldRecord 62 with active := false, srcActive := false } ∧
      (62 : Byte).toNat < 63 ∧ (heldRecord 62).latched = false) :=
  ⟨lossTable_law (by unfold FaultRecLaw; decide) (by decide), lossTable_law (by unfold FaultRecLaw; decide) (by decide),
    by decide +kernel, by decide +kernel, by decide +kernel⟩

theorem test_ack_of_an_ended_record_clears_list_full :
    (run (.ackReport 1 62 0) (withTable (lossTable lossRecord) openState)).faults.overflow.active = false ∧
    (run (.ackReport 1 0 0) (withTable (lossTable lossRecord) openState)).faults.overflow = lossRecord := by decide +kernel

theorem test_witness_Raise_known :
    (FaultTableLaw (oneRecord latchedRecord) ∧ (oneRecord latchedRecord).ordinary[(0 : Fin 63)] = some latchedRecord ∧
      latchedRecord.latched = true) ∧
    ((oneRecord sentRecord).ordinary[(0 : Fin 63)] = some sentRecord ∧ sentRecord.latched = false ∧
      12 < min 15 (sentRecord.level + 4)) ∧
    (FaultTableLaw (oneRecord { sentRecord with level := 8 }) ∧ min 15 (({ sentRecord with level := 8 } : FaultRec).level + 4) ≤ 12) :=
  ⟨⟨oneRecord_law latchedRecord_law, by decide +kernel, rfl⟩, by decide +kernel,
    oneRecord_law (r := { sentRecord with level := 8 }) (by unfold FaultRecLaw; decide), by decide⟩

theorem test_witness_Raise_new :
    ((oneRecord sentRecord).ordinary[(1 : Fin 63)] = none ∧ (∀ j : Fin 63, j < 1 → (oneRecord sentRecord).ordinary[j] ≠ none) ∧
      sentRecord.code ≠ .portDown) ∧
    (FaultTableLaw (fullOf agedRecord) ∧ (∀ j : Fin 63, (fullOf agedRecord).ordinary[j] = some (agedRecord j)) ∧
      (∀ j : Fin 63, (agedRecord j).code ≠ .portDown) ∧ (agedRecord 5).spent = true ∧
      ∀ j : Fin 63, (agedRecord j).age < (agedRecord 5).age ∨ ((agedRecord j).age = (agedRecord 5).age ∧ 5 ≤ j)) ∧
    (FaultTableLaw (fullOf heldRecord) ∧ (∀ j : Fin 63, (fullOf heldRecord).ordinary[j] = some (heldRecord j)) ∧
      (∀ j : Fin 63, (heldRecord j).code ≠ .portDown ∧ (heldRecord j).spent = false)) := by
  refine ⟨by decide +kernel, ⟨fullOf_law _ ?_ ?_ ?_, by decide +kernel, by decide +kernel, by decide +kernel, by decide +kernel⟩,
    fullOf_law _ ?_ ?_ ?_, by decide +kernel, by decide +kernel⟩
  · intro i
    unfold FaultRecLaw
    simp [agedRecord, spentRecord, sentRecord, FaultRec.created]
  · intro i
    simp [agedRecord, spentRecord]
  · intro i j h
    exact Fin.ext (by simpa [agedRecord] using h)
  · intro i
    unfold FaultRecLaw
    simp [heldRecord, pendingRecord, sentRecord, FaultRec.created]
  · intro i
    simp [heldRecord, pendingRecord]
  · intro i j h
    exact Fin.ext (by simpa [heldRecord] using h)

/-! ### Hypotheses met: the crossing closed to the road -/

/-- The Sequence Controller's views as the records stand. -/
def told (s : State) : State :=
  { s with crossing := { s.crossing with demandView := s.demandsNow, islandView := s.islandsNow } }

def warned : State := told { inState .amber with demands := [{ idleDemand with state := .warning }] }
def islandTaken : State := told { inState .amber with sects := [clearSect, { clearSect with state := .occupied, count := 1 }] }

theorem test_witness_ClosureKeepsTheRoadClosed :
    (ClosureInvariant warned ∧ ∃ d ∈ warned.demands, d.state = .warning ∨ d.state = .clearing) ∧
    (ClosureInvariant islandTaken ∧ ∃ p i e r, islandTaken.store.plan = some p ∧ p.sects[i]? = some e ∧ e.kind = .island ∧
      islandOf p e.track = some i ∧ islandTaken.sects[i]? = some r ∧ r.state ≠ .clear) := by
  refine ⟨⟨?_, by decide +kernel⟩, ?_, smallPlan, 1, ⟨15, 0, .island, true, [⟨1, .inc⟩, ⟨2, .dec⟩]⟩,
    { clearSect with state := .occupied, count := 1 }, by decide +kernel⟩
  · unfold ClosureInvariant RecordsMatchPlan ViewsLaw CausesLaw
    decide +kernel
  · unfold ClosureInvariant RecordsMatchPlan ViewsLaw CausesLaw
    decide +kernel

/-! ### Hypotheses met: the crossing plan -/

theorem test_witness_PlanBlock : writing.store.write ≠ none ∧
    ((standbyState .checked true).store.write = none ∧ (standbyState .checked true).store.pending = true) ∧
    ((standbyState .empty false).store.write = none ∧ (standbyState .empty false).store.pending = false) ∧
    ((64 : Byte) :: List.replicate 64 (0 : Byte) = 64 :: List.replicate 64 0 ∧ 63 < (64 : Byte).toNat) ∧
    ((63 : Byte).toNat ≤ 63 ∧ (List.replicate 64 (0 : Byte)).length = 64 ∧ (List.replicate 63 (0 : Byte)).length ≠ 64) := by
  decide +kernel

theorem test_witness_BlockWrite :
    writing.store.write = some ⟨63, 9, List.replicate 64 7, 0⟩ ∧ BanksLaw writing.store ∧ NoActivation writing :=
  ⟨rfl, test_witness_StepKeepsThePlanStore.1, rfl⟩

/-- The small plan in the standby bank, its bytes listed. -/
def loaded : State :=
  { openState with store := { openState.store with
      bankB := ⟨(indexed 0 smallImage).filter fun c => decide (c.2 ≠ Memory.blank), .loading, .none, 0, 0⟩ } }

theorem test_witness_PlanCheck_bad : writing.store.write ≠ none ∧
    ((standbyState .checked true).store.write = none ∧ (standbyState .checked true).store.pending = true) ∧
    ((standbyState .empty false).store.write = none ∧ (standbyState .empty false).store.standby.state = .empty) ∧
    ((standbyState .bad false).store.write = none ∧ (standbyState .bad false).store.pending = false ∧
      (standbyState .bad false).store.standby.state ≠ .empty) := by decide +kernel

set_option maxRecDepth 40000 in
theorem test_witness_PlanCheck_length :
    checkImage (standbyState .bad false).lif.station (standbyState .bad false).store.standby.image = .bad .length none := by
  decide +kernel

set_option maxRecDepth 40000 in
theorem test_witness_PlanCheck_checked :
    loaded.store.write = none ∧ loaded.store.pending = false ∧ loaded.store.standby.state ≠ .empty ∧
      checkImage loaded.lif.station loaded.store.standby.image = .checked := by decide +kernel

set_option maxRecDepth 40000 in
theorem test_plan_check_names_the_first_failing_item :
    loaded.store.standby.image.length = 4096 ∧
    checkImage (some 62) loaded.store.standby.image = .bad .identity (some ⟨.dp, 2⟩) ∧
    checkImage (some 1) (loaded.store.standby.image.set 126 0) = .bad .crc none ∧
    checkImage (some 62) (loaded.store.standby.image.set 10 0) = .bad .length none := by decide +kernel

/-- The loaded bank CHECKED and an activation waiting, over an old plan. -/
def swapping (old : Option Plan) : State :=
  { loaded with store := { loaded.store with bankB := { loaded.store.bankB with state := .checked }, pending := true, plan := old } }

set_option maxRecDepth 40000 in
theorem loaded_holds_the_small_plan : planOf loaded.store.standby.image = smallPlan := by decide +kernel

theorem swapping_holds_the_small_plan (old : Option Plan) : planOf (swapping old).store.standby.image = smallPlan :=
  loaded_holds_the_small_plan

/-- A plan unlike the small one: another first DP, another track of the last, other sections, lights and first machine. -/
def otherPlan : Plan :=
  { smallPlan with
    dps := [⟨.line, .box, 63, 0, 0⟩, ⟨.head, .localHead, 131, 3, 0⟩, ⟨.line, .field, 62, 0, 1⟩]
    sects := [⟨14, 1, .approach, true, [⟨0, .inc⟩, ⟨1, .dec⟩]⟩, ⟨15, 0, .island, true, [⟨1, .inc⟩]⟩]
    groups := smallPlan.groups.set 0 absentGroup
    machines := smallPlan.machines.set 0 exitMachine }

theorem test_witness_Swap_detection :
    ((∀ h : Fin 8, newlyNamed (some smallPlan) smallPlan h = false) ∧ (dpsBefore (some smallPlan))[2]? = smallPlan.dps[2]? ∧
      sameDp ⟨.line, .field, 62, 0, 0⟩ ⟨.line, .field, 62, 0, 0⟩ = true ∧ (swapping (some smallPlan)).dps[2]? = some liveDp ∧
      (∀ y ∈ (dpsBefore (some smallPlan)).take 2, sameDp y ⟨.line, .field, 62, 0, 0⟩ = false)) ∧
    (newlyNamed none smallPlan 3 = true ∧ dpOfHead smallPlan.dps 3 ≠ some 0 ∧ (swapping none).heads[(3 : Fin 8)].failed = false) ∧
    (∀ e ∈ [smallPlan.dps[0]?, smallPlan.dps[2]?], ∀ y ∈ e, ∀ x ∈ dpsBefore (some otherPlan), sameDp x y = true →
      x.side ≠ y.side ∨ x.track ≠ y.track) ∧
    (sameBounds smallPlan.dps smallPlan.dps [⟨1, .inc⟩, ⟨2, .dec⟩] [⟨1, .inc⟩, ⟨2, .dec⟩] = true ∧
      (sectsBefore (some smallPlan))[1]? = smallPlan.sects[1]? ∧ (swapping (some smallPlan)).sects[1]? = some clearSect) ∧
    (∀ e ∈ smallPlan.sects, ∀ x ∈ sectsBefore (some otherPlan), x.id = e.id → x.track = e.track →
      sameBounds (dpsBefore (some otherPlan)) smallPlan.dps x.bounds e.bounds = false) ∧
    smallPlan.approaches[0]? ≠ none := by decide +kernel

theorem test_witness_Swap_road :
    (smallPlan.groups[(1 : Fin 4)].present = false ∧ smallPlan.groups[(0 : Fin 4)].present = true ∧
      otherPlan.groups[(0 : Fin 4)].present = false ∧ (swapping none).lights.command ≠ .noPlan) ∧
    ((swapping (some otherPlan)).crossing.state = .opened ∧ smallPlan.machines[(2 : Fin 4)].present = false ∧
      smallPlan.machines[(1 : Fin 4)].present = true ∧ otherPlan.machines[(1 : Fin 4)] = smallPlan.machines[(1 : Fin 4)] ∧
      smallPlan.machines[(0 : Fin 4)].present = true ∧ otherPlan.machines[(0 : Fin 4)] ≠ smallPlan.machines[(0 : Fin 4)]) ∧
    (({ swapping none with crossing := { openState.crossing with state := .noPlan } } : State).crossing.state = .noPlan ∧
      smallPlan.machines[(0 : Fin 4)].role = .entry ∧ smallPlan.machines[(1 : Fin 4)].role = .exit) := by decide +kernel

set_option maxRecDepth 40000 in
theorem test_swap_keeps_what_did_not_change : (swapping (some smallPlan)).swap.dps = openState.dps ∧
    (swapping (some smallPlan)).swap.sects = openState.sects ∧ (swapping (some smallPlan)).swap.heads = openState.heads := by
  decide +kernel

theorem test_witness_Swap_reports :
    (wrongSideActs (some smallPlan) smallPlan [61, 62] = [.clear .dpWrongSide ⟨.dp, 0⟩, .clear .dpWrongSide ⟨.dp, 2⟩] ∧
      wrongSideActs (some otherPlan) smallPlan [63] = []) ∧
    (newSectActs (some otherPlan) smallPlan [clearSect, clearSect] =
        [.raise .sectionDisturbed ⟨.sect, 0⟩ .urgent, .raise .sectionDisturbed ⟨.sect, 1⟩ .safety] ∧
      newSectActs (some smallPlan) smallPlan [clearSect, clearSect] = []) ∧
    (sourceAbsent (some otherPlan) smallPlan ⟨.dp, 0⟩ = true ∧ sourceAbsent (some smallPlan) smallPlan ⟨.dp, 0⟩ = false ∧
      sourceAbsent (some smallPlan) smallPlan ⟨.dp, 3⟩ = true ∧ sourceAbsent (some smallPlan) smallPlan ⟨.sect, 2⟩ = true ∧
      sourceAbsent (some otherPlan) smallPlan ⟨.sect, 1⟩ = false ∧ sourceAbsent none smallPlan ⟨.approach, 0⟩ = true ∧
      sourceAbsent (some smallPlan) smallPlan ⟨.head, 3⟩ = false ∧ sourceAbsent (some smallPlan) smallPlan ⟨.head, 2⟩ = true ∧
      sourceAbsent (some smallPlan) smallPlan ⟨.lamp, 2⟩ = false ∧ sourceAbsent (some smallPlan) smallPlan ⟨.lamp, 3⟩ = true ∧
      sourceAbsent (some smallPlan) smallPlan ⟨.group, 1⟩ = true ∧ sourceAbsent (some smallPlan) smallPlan ⟨.machine, 1⟩ = false ∧
      sourceAbsent (some smallPlan) smallPlan ⟨.machine, 2⟩ = true ∧ sourceAbsent none smallPlan ⟨.zone, 0⟩ = false) ∧
    ((swapping none).store.selected = .a ∧
      (({ upMachine with boom := false } : MachineRec).fromDetectors 0 true).state = .failed ∧
      (({ upMachine with state := .failed } : MachineRec).fromDetectors 0 true).state = .upProved) := by decide +kernel

set_option maxRecDepth 40000 in
theorem test_swap_reports_the_plan : ((swapping (some smallPlan)).swap.faults.get 0).map (fun r => (r.code, r.source, r.active)) =
    some (.planActivated, ⟨.plan, 1⟩, false) := by decide +kernel

/-- The loaded bank selected, ACTIVE or EMPTY, over a standby bank. -/
def starting (st : BankState) (standby : Bank) : State :=
  { openState with store := { loaded.store with bankA := { loaded.store.bankB with state := st }, bankB := standby } }

set_option maxRecDepth 40000 in
theorem test_witness_Start :
    ((run .start (starting .active Bank.delivered)).store.plan = some smallPlan ∧
      (run .start (starting .active Bank.delivered)).dpTable[0]? = some ⟨.line, .box, 61, 0, 0⟩ ∧
      dpOfHead (run .start (starting .active Bank.delivered)).dpTable 3 = some 1) ∧
    ((run .start (starting .empty Bank.delivered)).store.plan = none) := by decide +kernel

set_option maxRecDepth 40000 in
theorem test_start_raises :
    ((List.range 6).map fun n => ((run .start (starting .active Bank.delivered)).faults.get n).map fun r => (r.code, r.source, r.cls)) =
      [some (.start, ⟨.crossing, 0⟩, .info), some (.portDown, ⟨.port, 0⟩, .urgent), some (.portDown, ⟨.port, 1⟩, .urgent),
       some (.sectionDisturbed, ⟨.sect, 0⟩, .urgent), some (.sectionDisturbed, ⟨.sect, 1⟩, .safety), none] ∧
    ((run .start (starting .empty Bank.delivered)).faults.get 3).map (fun r => (r.code, r.cls)) = some (.crossingNoPlan, .safety) := by
  decide +kernel

set_option maxRecDepth 40000 in
theorem test_witness_Start_banks :
    ((starting .active Bank.delivered).store.bank .a).state ≠ .empty ∧
    checkImage (some 1) ((starting .active Bank.delivered).store.bank .a).image = .checked ∧
    checkImage (some 1) (standbyState .checked false).store.standby.image = .bad .length none ∧
    stationOf openState.pins.addr = some 1 ∧ (standbyState .checked false).store.standby.state = .checked ∧
    (writing.store.write ≠ none ∧ 64 * 63 + 63 < Memory.size) := by decide +kernel

theorem test_witness_PlanActivate : (standbyState .empty false).store.standby.state ≠ .checked ∧
    ((standbyState .checked true).store.standby.state = .checked ∧
      (standbyState .checked true).store.standby.planId = (310 : BitVec 16).toNat ∧
      (standbyState .checked true).store.standby.version = (6 : Byte).toNat ∧
      (standbyState .checked true).store.pending = true ∧
      (standbyState .checked true).store.standby.planId ≠ (311 : BitVec 16).toNat ∧
      (standbyState .checked true).store.standby.version ≠ (5 : Byte).toNat) ∧
    ((standbyState .checked false).store.pending = false ∧ (standbyState .checked false).activationCondition = true) ∧
    (State.activationCondition { standbyState .checked false with demands := [{ idleDemand with state := .timing }] }) = false := by
  decide +kernel

theorem test_witness_PlanCancel : ((standbyState .checked true).store.pending = true) ∧
    ((standbyState .checked false).store.pending = false) ∧
    ∃ t, exec (.planCancel 1) (standbyState .checked true) = .next t ∧ t.store.write = none ∧
      t.store.standby.state = .checked := ⟨rfl, rfl, _, rfl, by decide +kernel⟩

/-! ### Hypotheses met: the line -/

theorem test_witness_Fill_and_complement (p : Port) :
    ((portState p .down openState).port p).state = .down ∧ ((portState p .checking openState).port p).state = .checking ∧
    ((portState p .active openState).port p).state = .active ∧
    ((portState p .isolated openState).port p).state = .isolated ∧
    (State.port (openState.onPort p fun r => { r with inverted := true }) p).inverted = true := by cases p <;> decide +kernel

/-- A port with a telegram in transmission. -/
def sendingOn (p : Port) (s : State) : State := s.onPort p fun r => { r with sending := some ⟨[1, 2], 0, 250⟩ }

theorem test_witness_Output (p : Port) :
    (((sendingOn p openState).port p).state ≠ .isolated ∧ ((sendingOn p openState).port p).sending = some ⟨[1, 2], 0, 250⟩ ∧
      (openState.port p).state ≠ .isolated ∧ (openState.port p).sending = none ∧ (openState.port p).inverted = false) ∧
    ((sendingOn p openState).port p).output = .telegram [1, 2] ∧ (openState.port p).output = .fill fillByte ∧
    ((portState p .isolated openState).port p).output = .nothing ∧ complementByte = ~~~fillByte := by cases p <;> decide +kernel

theorem test_complement_leaves_a_silent_port_down (p : Port) :
    ((run (.complementBytes p) openState).port p).state = .down ∧ ((run (.complementBytes p) openState).port p).inverted = true ∧
      ((run (.complementBytes p) openState).port p).lastActivity = (openState.port p).lastActivity := by
  cases p <;> decide +kernel

theorem test_witness_Silence (p : Port) :
    (((portState p .active (atTime 199 openState)).port p).silentFor 199 = false) ∧
    (((portState p .checking (atTime 200 openState)).port p).state = .checking ∧
      ((portState p .active (atTime 200 openState)).port p).state = .active ∧
      reached (after ((portState p .active (atTime 200 openState)).port p).lastActivity 200) 200 = true) := by
  cases p <;> decide +kernel

/-- The box port ACTIVE and silent, a record SENT. -/
def unheard : State := withTable (oneRecord sentRecord) (portState .box .active (atTime 200 openState))

theorem test_witness_Silence_reports : FaultTableLaw unheard.faults ∧ (unheard.port .box).state = .active ∧
    reached (after (unheard.port .box).lastActivity 200) unheard.clock = true ∧ sentRecord.report = .sent ∧
    (run (.portActivityTimeout .box) unheard).faults.get 0 =
      some { sentRecord with report := .pending, ackBy := none, resend := 1 } ∧
    (run (.portActivityTimeout .box) unheard).faults.window = [] :=
  ⟨oneRecord_law sentRecord_law, by decide +kernel⟩

theorem test_witness_Checking (p : Port) :
    (((portState p .checking (atTime 1999 openState)).port p).checked 1999 = false) ∧
    (((portState p .checking (atTime 2000 openState)).port p).state = .checking ∧
      reached (after ((portState p .checking (atTime 2000 openState)).port p).checkStart 2000) 2000 = true) := by
  cases p <;> decide +kernel

theorem test_witness_TransmitEnd (p : Port) :
    (State.port (openState.onPort p fun r => { r with sending := some ⟨[], 0, 250⟩ }) p).sending = some ⟨[], 0, 250⟩ ∧
    (Sending.mk [] ⟨0, 250⟩).ends.ms = openState.clock ∧ later (Sending.mk [] ⟨1, 250⟩).ends.ms openState.clock = true := by
  cases p <;> decide +kernel

/-- What follows the start byte of a telegram. -/
def received (t : Telegram) : List Byte := (frameOf t).drop 1

def fromOwnAddress : Telegram := { reportsStartTelegram with src := 1, dest := 0 }
def fromAnother : Telegram := { reportsStartTelegram with src := 3 }
def forAnother (hops : Byte) : Telegram := ⟨9, 3, 4, hops, 0, [2, 9]⟩

theorem test_witness_TelegramChecks (p : Port) :
    (((portState p .isolated openState).port p).state = .isolated) ∧
    (((portState p .checking openState).port p).state ≠ .isolated ∧ NoActivation (portState p .checking openState)) ∧
    (Telegram.check [] = none) ∧
    (Telegram.check (received fromOwnAddress) = some fromOwnAddress ∧ openState.lif.station = some fromOwnAddress.src) ∧
    (Telegram.check (received reportsStartTelegram) = some reportsStartTelegram ∧
      State.loops (portState p .checking openState) reportsStartTelegram.src = false) := by
  cases p <;> decide +kernel

/-- A port with lists of error and loop times, at 5000. -/
def troubled (p : Port) (errors loops : Nat) (raised : Bool) : State :=
  State.onPort (portState p .active (atTime 5000 openState)) p fun r =>
    { r with errorTimes := List.replicate errors 4000, loopTimes := List.replicate loops 4000, lineErrors := raised, lineLoop := raised }

theorem test_witness_Thresholds (p : Port) :
    ((troubled p 20 2 false).port p).state ≠ .isolated ∧ ((troubled p 20 2 false).port p).lineErrors = false ∧
    ((troubled p 20 2 false).port p).lineLoop = false ∧ ((troubled p 21 3 true).port p).lineErrors = true ∧
    ((troubled p 21 3 true).port p).lineLoop = true ∧
    (((troubled p 20 2 false).port p).errorTimes.filter fun t => later (after t 10000) 5000).length = 20 ∧
    (((troubled p 21 3 true).port p).errorTimes.filter fun t => later (after t 10000) 5000).length = 21 ∧
    (((troubled p 20 2 false).port p).loopTimes.filter fun t => later (after t 10000) 5000).length = 2 ∧
    (((troubled p 21 3 true).port p).loopTimes.filter fun t => later (after t 10000) 5000).length = 3 ∧
    (∃ e ∈ (troubled p 20 2 false).dpTable, e.source = .head ∧ e.address = 131) ∧
    Telegram.check (received { fromOwnAddress with src := 131 }) = some { fromOwnAddress with src := 131 } := by
  cases p <;> decide +kernel

theorem test_21st_error_and_3rd_loop :
    (run (.telegramReceived .field [] 0) (troubled .field 19 2 false)).lif.field.lineErrors = false ∧
    (run (.telegramReceived .field [] 0) (troubled .field 20 2 false)).lif.field.lineErrors = true ∧
    (run (.telegramReceived .field (received fromOwnAddress) 0) (troubled .field 0 1 false)).lif.field.lineLoop = false ∧
    (run (.telegramReceived .field (received fromOwnAddress) 0) (troubled .field 0 2 false)).lif.field.lineLoop = true := by
  decide +kernel

/-- Both ports ACTIVE. -/
def bothActive : State := portState .box .active (portState .field .active openState)

theorem test_witness_TelegramsConsumed :
    (Telegram.check (received reportsStartTelegram) = some reportsStartTelegram ∧
      bothActive.loops reportsStartTelegram.src = false ∧ bothActive.lif.box.state = .active ∧
      bothActive.lif.station = some reportsStartTelegram.dest ∧ reportsStartTelegram.kind = kindCommand) ∧
    (Telegram.check (received fromAnother) = some fromAnother ∧ bothActive.loops fromAnother.src = false ∧
      bothActive.lif.station = some fromAnother.dest ∧ fromAnother.kind = kindCommand ∧ fromAnother.src ≠ 0) := by
  decide +kernel

theorem test_witness_Decoder :
    ((0 : Byte).toNat = 0 ∧ 23 < (24 : Byte).toNat) ∧ (((18 : Byte).toNat, 3) ∈ [(17, 0), (18, 3)] ∧ [(1 : Byte), 2].length ≠ 3) ∧
    (2 < (3 : Byte).toNat ∧ 11 < (12 : Byte).toNat ∧ 3 < (4 : Byte).toNat ∧ 7 < (8 : Byte).toNat) ∧
    ((run (.remoteRequest 9) openState).authority.owner = .remote ∧
      (State.settle (decodeAndRun [7, 9] openState.hear)).authority.owner = .remote ∧
      (State.settle (decodeAndRun [7, 9, 0] openState.hear)).authority.owner = .auto) := by decide +kernel

theorem test_witness_TelegramsRelayed :
    (Telegram.check (received (forAnother 15)) = some (forAnother 15) ∧ bothActive.loops 3 = false ∧
      bothActive.lif.field.state = .active ∧ bothActive.lif.station ≠ some 9 ∧ (forAnother 15).kind ≠ kindCount) ∧
    (Telegram.check (received (forAnother 14)) = some (forAnother 14) ∧ (forAnother 14).hops ≠ 15 ∧
      bothActive.lif.box.state = .active ∧ bothActive.lif.q1.length < 16) := by decide +kernel

/-- A COUNT of a detection point. -/
def countFrom (src hops : Byte) : Telegram := ⟨255, src, kindCount, hops, 4, countBytes ⟨1, 0, 0, .ok, false⟩⟩
def wrongSided : State := { bothActive with lif := { bothActive.lif with wrongSide := [61, 62] } }

theorem test_witness_Telegrams_kinds (p : Port) :
    ((bothActive.port p).state = .active ∧ bothActive.lif.station = some 1 ∧ kindCount ≠ kindCommand ∧
      bothActive.lif.station ≠ some (forAnother 3).dest ∧ lineDpOf bothActive.dpTable 63 = none) ∧
    (Telegram.check (received (countFrom 61 15)) = some (countFrom 61 15) ∧ bothActive.loops 61 = false ∧
      bothActive.loops 62 = false ∧ bothActive.lif.station ≠ some 255 ∧ (countFrom 61 15).kind = kindCount ∧
      countOf (countFrom 61 15).body = some ⟨1, 0, 0, .ok, false⟩) ∧
    (lineDpOf bothActive.dpTable 61 = some 0 ∧ bothActive.dpTable[0]? = some ⟨.line, .box, 61, 0, 0⟩ ∧
      lineDpOf bothActive.dpTable 62 = some 2 ∧ bothActive.dpTable[2]? = some ⟨.line, .field, 62, 0, 0⟩) ∧
    (Side.box = sideOf .box ∧ Side.field ≠ sideOf .box ∧ Side.field = sideOf .field ∧ Side.box ≠ sideOf .field) ∧
    (61 ∉ bothActive.lif.wrongSide ∧ 61 ∈ wrongSided.lif.wrongSide ∧ 62 ∈ wrongSided.lif.wrongSide) := by
  cases p <;> decide +kernel

theorem test_witness_Relay :
    (openState.lif.field.state ≠ .active ∧ openState.lif.box.state ≠ .active ∧ (14 : Byte) ≠ 15) ∧
    ((queued (List.replicate 32 waiting) [] [] [] 0).lif.field.state = .active ∧
      32 ≤ (queued (List.replicate 32 waiting) [] [] [] 0).lif.qf.length ∧
      (queued (List.replicate 31 waiting) [] [] [] 0).lif.qf.length < 32 ∧
      (queued [] [] [] [] 0).lif.box.state = .active) := by decide +kernel

theorem test_relayed_hops_and_age :
    ((⟨9, 3, .relayed 4 [2, 9], .relay 14 254 ⟨0, 999⟩⟩ : Waiting).telegram ⟨1, 0⟩).hops = 15 ∧
    ((⟨9, 3, .relayed 4 [2, 9], .relay 14 252 ⟨0, 999⟩⟩ : Waiting).telegram ⟨1, 0⟩).age = 254 ∧
    ((⟨9, 3, .relayed 4 [2, 9], .relay 14 255 ⟨0, 999⟩⟩ : Waiting).telegram ⟨1, 0⟩).age = 255 := by decide +kernel

theorem test_age_of_an_axle_runs_from_its_clock_value :
    axleAge (some 1000) ⟨1001, 200⟩ = 2 ∧ axleAge (some 1000) ⟨1000, 0⟩ = 0 ∧ axleAge (some 1000) ⟨1254, 0⟩ = 254 ∧
    axleAge (some 1000) ⟨1254, 1⟩ = 255 ∧ axleAge none ⟨1254, 1⟩ = 0 := by decide +kernel

theorem test_witness_TelegramsReadBack :
    (headerFits (255 : Byte) 3 15 (byteOf 8) = true ∧ (countBytes ⟨7, 4095, 4095, .ok, true⟩).length ≤ 72 ∧
      bodyFits kindCount (countBytes ⟨7, 4095, 4095, .ok, true⟩) = true) ∧
    bodyFits kindCommand (List.replicate 72 0) = true ∧ headerFits 1 0 0 72 = true := by decide +kernel

theorem test_status_and_report_bodies :
    Payload.bytes (.status openState.statusNow) = (kindStatus,
      [0, 0, 0, 0, 0, 15, 15, 15, 15, 15, 15, 15, 0, 0, 15, 15, 15, 0, 0, 15, 15, 1, 54, 5]) ∧
    (openState.statusNow.demands.length = 8 ∧ openState.statusNow.groups.length = 4 ∧ openState.statusNow.machines.length = 4) ∧
    Payload.bytes (.report ⟨63, 255, .zoneHold, ⟨.faultTable, 0⟩, .safety, true, true, 65535, 1, 0x01020304⟩) = (kindReport,
      [63, 255, BitVec.ofNat 8 FaultCode.zoneHold.number, 12, 0, 3, 3, 255, 255, 0, 0, 0, 1, 1, 2, 3, 4]) := by decide +kernel

/-! ### Hypotheses met: detection -/

/-- The line DP at 4095 in one direction, so that 511 is 512 axles on. -/
def countedDp : DpRec := { liveDp with seq := 254, inc := 4095, dec := 512 }
def counted : State := { openState with dps := [countedDp, liveDp, liveDp] }
def fullDelivery : Delivery := ⟨⟨255, 511, 512, .degraded, false⟩, 0, .box, none⟩

theorem test_witness_DeliveredCounts :
    (counted.dps[0]? = some countedDp ∧ countedDp.state = .live ∧ countedDp.baseline = true ∧
      fullDelivery.body.seq = countedDp.seq + 1 ∧ fullDelivery.body.health ≠ .failed ∧
      fullDelivery.body.restarted = false ∧ countedDp.inc < 4096 ∧ countedDp.dec < 4096) ∧
    (512 = (fullDelivery.body.inc + (4096 - countedDp.inc)) % 4096 ∧
      0 = (fullDelivery.body.dec + (4096 - countedDp.dec)) % 4096) ∧
    (counted.sectTable[0]? = some ⟨14, 0, .approach, true, [⟨0, .inc⟩, ⟨1, .dec⟩]⟩ ∧ counted.sects[0]? = some clearSect ∧
      enteringOf ⟨14, 0, .approach, true, [⟨0, .inc⟩, ⟨1, .dec⟩]⟩ 0 = some .inc ∧
      enteringOf ⟨14, 0, .approach, true, [⟨0, .inc⟩, ⟨1, .dec⟩]⟩ 1 = some .dec ∧
      enteringOf ⟨14, 0, .approach, true, [⟨0, .inc⟩, ⟨1, .dec⟩]⟩ 2 = none) := by decide +kernel

/-- A delivery to the counted DP, so many telegrams on, with the counters and flags given. -/
def delivery (seq : Byte) (inc dec : Nat) (h : Health) (restarted : Bool) : Delivery := ⟨⟨seq, inc, dec, h, restarted⟩, 0, .box, none⟩

theorem test_witness_Delivered_states :
    (countedDp.baseline = true ∧ (delivery 254 0 0 .ok false).body.seq = countedDp.seq) ∧
    (({ countedDp with baseline := false, state := .silent } : DpRec).baseline = false ∧
      ({ countedDp with baseline := false } : DpRec).state ≠ .silent ∧ (delivery 254 0 0 .ok false).body.health ≠ .failed) ∧
    ((delivery 255 0 0 .failed false).body.health = .failed ∧ (delivery 255 0 0 .failed false).body.seq ≠ countedDp.seq ∧
      ({ countedDp with state := .failed } : DpRec).state = .failed ∧ ({ countedDp with state := .silent } : DpRec).state = .silent) ∧
    ((delivery 255 0 512 .ok true).body.restarted = true ∧ countedDp.restart = false ∧
      (delivery 255 0 512 .ok true).body.inc ≠ countedDp.inc ∧ (delivery 255 4095 512 .ok true).body.inc = countedDp.inc ∧
      (delivery 255 4095 512 .ok true).body.dec = countedDp.dec ∧ ({ countedDp with restart := true } : DpRec).restart = true) ∧
    ((delivery 255 0 512 .ok true).body.restarted = true ∧ ({ countedDp with restart := true } : DpRec).restart = true ∧
      (delivery 255 0 512 .ok true).body.seq = countedDp.seq + 1) ∧
    (512 < (512 + (4096 - countedDp.inc)) % 4096 ∧ (511 + (4096 - countedDp.inc)) % 4096 = 512) ∧
    ((delivery 0 4095 512 .ok false).body.seq ≠ countedDp.seq + 1 ∧ (4095 + (4096 - countedDp.inc)) % 4096 = 0 ∧
      ((0 : Byte) - countedDp.seq - 1).toNat = 1) := by decide +kernel

/-- DP 0 with its record made anew by a swap, a fault of the DP raised before still ACTIVE. -/
def anew (code : FaultCode) : State :=
  ({ counted with dps := [DpRec.fresh .box 2000] } : State).raise code ⟨.dp, 0⟩ .urgent

/-- R55, R65: the first telegram of a record made anew clears DP_SILENT, and DP_HEAD_FAILED where its health is not FAILED. -/
theorem test_first_telegram_clears_the_faults_of_the_dp :
    ((anew .dpSilent).dps[0]?.map (·.state) = some .unseen ∧ (anew .dpSilent).dps[0]?.map (·.baseline) = some false ∧
      ((anew .dpSilent).faults.get 0).map (·.active) = some true) ∧
    (((anew .dpSilent).deliver 0 (delivery 255 0 512 .ok false)).faults.get 0).map (fun r => (r.code, r.active)) =
      some (.dpSilent, false) ∧
    (((anew .dpSilent).deliver 0 (delivery 255 0 512 .failed false)).faults.get 0).map (fun r => (r.code, r.active)) =
      some (.dpSilent, false) ∧
    (((anew .dpHeadFailed).deliver 0 (delivery 255 0 512 .degraded false)).faults.get 0).map (fun r => (r.code, r.active)) =
      some (.dpHeadFailed, false) ∧
    (((anew .dpHeadFailed).deliver 0 (delivery 255 0 512 .failed false)).faults.get 0).map (fun r => (r.active, r.raises)) =
      some (true, 2) := by decide +kernel

theorem test_witness_Delivered_passages :
    (counted.store.plan = some smallPlan ∧ smallPlan.approaches[0]? = some ⟨0, .inc, [⟨0, 24000⟩, ⟨1, 18000⟩], [0], 2, false, 0⟩ ∧
      counted.demands[0]? = some idleDemand ∧ ({ counted with dps := [liveDp, countedDp] } : State).dps[1]? = some countedDp ∧
      (State.reset).store.plan = none) ∧
    ((delivery 255 4095 512 .ok false).body.seq = countedDp.seq + 1 ∧ (4095 + (4096 - countedDp.inc)) % 4096 = 0 ∧
      (512 + (4096 - countedDp.dec)) % 4096 = 0) := by decide +kernel

theorem test_passages_of_an_approach :
    (openState.passage 0 .inc (some 5)).demands.map (fun d => (d.state, d.point)) = [(.timing, some 1)] ∧
    (openState.passage 1 .inc (some 5)).demands.map (fun d => (d.state, d.point)) = [(.warning, some 2)] ∧
    (openState.passage 0 .dec (some 5)).demands = openState.demands ∧
    (openState.passage 2 .inc (some 5)).demands = openState.demands ∧
    (counted.handOn 0 1 1 (some 5)).demands.map (fun d => (d.state, d.point)) = [(.timing, some 1)] := by decide +kernel

theorem test_missed_telegrams_are_counted :
    ((counted.deliver 0 (delivery 0 0 512 .ok false)).dps[0]?).map (fun r => (r.missed, r.deltaInc, r.lastEvent)) = some (1, 1, none) := by
  decide +kernel

theorem test_witness_DpSilence : (openState.dps[0]? = some liveDp ∧ liveDp.silenceDue 1999 = false) ∧
    (liveDp.state ≠ .silent ∧ due liveDp.deadline 2000 = true ∧ NoActivation (atTime 2000 openState)) ∧
    boundedBy 0 ⟨14, 0, .approach, true, [⟨0, .inc⟩, ⟨1, .dec⟩]⟩ = true := by decide +kernel

theorem test_witness_DpSilence_class :
    (∃ e ∈ openState.sectTable, e.kind = .island ∧ ∃ b ∈ e.bounds, b.dp = 1) ∧
    (∀ e ∈ openState.sectTable, e.kind = .island → ∀ b ∈ e.bounds, b.dp ≠ 0) ∧
    ((run (.dpSilenceDeadline 1) (atTime 2000 openState)).faults.get 2).map (fun r => (r.code, r.cls)) =
      some (.dpSilent, .safety) := by decide +kernel

/-- An island with its record in a state. -/
def islandEntry : SectionEntry := ⟨15, 0, .island, true, [⟨1, .inc⟩, ⟨2, .dec⟩]⟩

theorem test_witness_SectionEvents :
    (islandEntry.kind = .island ∧ openState.sectTable[1]? = some islandEntry ∧ openState.sects[1]? = some clearSect ∧
      enteringOf islandEntry 1 = some .inc ∧ enteringOf islandEntry 2 = some .dec ∧ enteringOf islandEntry 0 = none ∧
      boundedBy 2 islandEntry = true ∧ boundedBy 0 islandEntry = false) ∧
    sectEventActs true [islandEntry, islandEntry] [clearSect, { clearSect with state := .restoring }]
      [{ clearSect with state := .occupied }, clearSect] =
      [.moment .islandUnprotected ⟨.sect, 0⟩ .safety, .clear .sectionDisturbed ⟨.sect, 1⟩] ∧
    sectEventActs false [islandEntry] [clearSect] [{ clearSect with state := .disturbed }] =
      [.raise .sectionDisturbed ⟨.sect, 0⟩ .safety] ∧
    sectEventActs false [islandEntry] [clearSect] [{ clearSect with state := .occupied }] = [] := by decide +kernel

theorem test_axle_on_an_open_road_is_unprotected :
    ((openState.countDelta 2 0 1).faults.get 0).map (fun r => (r.code, r.source, r.active)) =
      some (.islandUnprotected, ⟨.sect, 1⟩, false) ∧
    (State.countDelta (inState .closed) 2 0 1).faults.get 0 = none := by decide +kernel

/-- Head 3 with its channels as given. -/
def withHead (f : HeadRec → HeadRec) (s : State) : State := s.onHead 3 f

/-- Channel A active since 0, channel B with a pulse waiting that began at 0 and a microsecond. -/
def pairing : State :=
  withHead (fun r => { r with
    a := ⟨true, some ⟨0, 0⟩, 400000, none, none⟩
    b := ⟨false, none, 400000, none, some ⟨⟨0, 1⟩, ⟨1, 0⟩⟩⟩ }) (atTime 2 openState)

/-- Channel A active since 0 alone. -/
def pulsing (now : Time) : State := withHead (fun r => { r with a := ⟨true, some ⟨0, 0⟩, 400000, none, none⟩ }) (atTime now openState)

theorem test_witness_HeadEdges :
    ((openState.heads[(3 : Fin 8)].channel .a).level = false) ∧
    ((pulsing 2).heads[(3 : Fin 8)].channel .a).level = true ∧ (pulsing 2).named 3 = true ∧ openState.named 0 = false ∧
    ((pulsing 2).heads[(3 : Fin 8)].failed = false ∧ ((pulsing 2).heads[(3 : Fin 8)].channel .a).since = some ⟨0, 0⟩ ∧
      (pulsing 2).pminMicros ≤ microsFrom ⟨0, 0⟩ ⟨2, 0⟩ ∧ microsFrom ⟨0, 0⟩ ⟨1, 999⟩ < (pulsing 1).pminMicros ∧
      microsFrom ⟨0, 0⟩ ⟨400, 0⟩ ≤ ((pulsing 400).heads[(3 : Fin 8)].channel .a).limit ∧
      ((pulsing 400).heads[(3 : Fin 8)].channel .a).limit < microsFrom ⟨0, 0⟩ ⟨400, 1⟩ ∧ NoActivation (pulsing 2) ∧
      ((pulsing 2).heads[(3 : Fin 8)].channel .b).unpaired = none ∧ ((pulsing 2).heads[(3 : Fin 8)].channel .b).since = none) ∧
    ((pairing.heads[(3 : Fin 8)].channel .b).unpaired = some ⟨⟨0, 1⟩, ⟨1, 0⟩⟩ ∧ (⟨0, 0⟩ : Moment) ≠ ⟨0, 1⟩ ∧
      momentBefore ⟨0, 0⟩ ⟨0, 1⟩ = true ∧ momentBefore ⟨0, 0⟩ ⟨1, 0⟩ = true) ∧
    ((State.onHead openState 0 (HeadRec.onChannel .a fun x => { x with level := true })).heads[(0 : Fin 8)].channel .a).level =
      true := by decide +kernel

theorem test_witness_HeadTimes :
    ((pulsing 399).stuckDue 3 .a = false ∧ (atTime 499 openState).heartbeatDue 3 = false ∧
      (atTime 4999 openState).restartedDue = false) ∧
    (((pulsing 400).heads[(3 : Fin 8)].channel .a).limit ≤ microsFrom ⟨0, 0⟩ ⟨400, 0⟩ ∧ NoActivation (pulsing 400) ∧
      (pulsing 400).named 3 = true ∧ (pulsing 400).heads[(3 : Fin 8)].sentHealth ≠ .failed ∧
      (pulsing 400).heads[(3 : Fin 8)].owed = false ∧ (pulsing 400).pending = [] ∧
      ((pulsing 400).heads[(3 : Fin 8)].channel .a).limit < microsFrom ⟨0, 0⟩ ⟨400, 1⟩) ∧
    (reached 5000 5000 = true ∧ ∃ k : Fin 8, openState.heads[k].restarted = true) ∧
    (openState.named 3 = true ∧ reached (after openState.heads[(3 : Fin 8)].lastSent 500) 500 = true) ∧
    (openState.named 0 = false ∧ openState.heads[(3 : Fin 8)].sentHealth ≠ .degraded ∧
      (withHead (fun r => { r with oneChannel := [1] }) (atTime 60000 openState)).heads[(3 : Fin 8)].healthAt 60000 ≠ .ok) := by
  decide +kernel

/-- R66, R67: a channel active since START is found stuck Pmax after START, and not where its pulse ends at that very moment. -/
theorem test_stuck_channel_is_found_at_pmax :
    (run (.headStuck 3 .a) (pulsing 400)).heads[(3 : Fin 8)].cause = .stuck ∧
    (run (.headStuck 3 .a) { pulsing 400 with pending := [.headChannelEdge 3 .a false 0] }).heads[(3 : Fin 8)].failed = false ∧
    (run (.headChannelEdge 3 .a false 0) (pulsing 400)).heads[(3 : Fin 8)].a.last = some ⟨⟨0, 0⟩, ⟨400, 0⟩⟩ ∧
    (run (.headStuck 3 .a) { pulsing 400 with pending := [.headChannelEdge 3 .a false 1] }).heads[(3 : Fin 8)].failed = true ∧
    (run (.headStuck 3 .a) { pulsing 400 with pending := [.start, .headChannelEdge 3 .a false 0] }).heads[(3 : Fin 8)].failed =
      true := by decide +kernel

/-- A pulse of channel B that waits from before the head was unnamed, over when channel A's began. -/
def leftWaiting : State := withHead (fun r => { r with b := { r.b with unpaired := some ⟨⟨0, 0⟩, ⟨0, 1⟩⟩ } })
  (withHead (fun r => { r with a := { r.a with since := some ⟨0, 1⟩ } }) (pulsing 3))

/-- R66, R68: a swap leaves a waiting pulse in the record, and it pairs with no pulse that it does not overlap. -/
theorem test_pulse_left_waiting_pairs_with_none :
    ((leftWaiting.heads[(3 : Fin 8)].namedNow ⟨5, 0⟩ 400000).b.unpaired = some ⟨⟨0, 0⟩, ⟨0, 1⟩⟩ ∧
      (leftWaiting.heads[(3 : Fin 8)].namedNow ⟨5, 0⟩ 400000).a.since = some ⟨5, 0⟩) ∧
    (momentBefore ⟨0, 1⟩ ⟨0, 1⟩ = false ∧ leftWaiting.pminMicros ≤ microsFrom ⟨0, 1⟩ ⟨3, 0⟩) ∧
    ((run (.headChannelEdge 3 .a false 0) leftWaiting).heads[(3 : Fin 8)].inc = 0 ∧
      (run (.headChannelEdge 3 .a false 0) leftWaiting).heads[(3 : Fin 8)].dec = 0 ∧
      (run (.headChannelEdge 3 .a false 0) leftWaiting).heads[(3 : Fin 8)].oneChannel = [3]) := by decide +kernel

/-- Channel A ends its pulse while channel B is still active. -/
def overlapping : State := withHead (fun r => { r with b := ⟨true, some ⟨1, 0⟩, 400000, none, none⟩ }) (pulsing 2)

/-- An axle of head 3 not yet carried, with a further event of the head waiting or not. -/
def owing (l : List Instr) : State := { withHead (fun r => { r with owed := true, earliest := some 1 }) pairing with pending := l }

theorem test_witness_HeadEdges_owed :
    ((owing []).heads[(3 : Fin 8)].owed = true ∧ (owing []).headWaits 3 = false ∧ (owing []).named 3 = true ∧
      (owing [.headStuck 3 .b]).headWaits 3 = true ∧ (owing [.headStuck 2 .b]).headWaits 3 = false ∧
      (owing [.headStuck 3 .b, .start]).headWaits 3 = true ∧ (owing [.start, .headStuck 3 .b]).headWaits 3 = false) ∧
    ((overlapping.heads[(3 : Fin 8)].channel .b).since = some ⟨1, 0⟩ ∧ momentBefore ⟨1, 0⟩ ⟨2, 0⟩ = true ∧
      (overlapping.heads[(3 : Fin 8)].channel .a).unpaired = none ∧
      (overlapping.heads[(3 : Fin 8)].channel .b).unpaired = none) := by decide +kernel

/-- R72, R4: an axle is carried before a START that waits, though a further edge of the head waits behind it. -/
theorem test_count_goes_out_before_start :
    (run (.headChannelEdge 3 .a false 0) { pairing with pending := [.start, .headChannelEdge 3 .b true 0] }).heads[(3 : Fin 8)].owed =
      false ∧
    (run (.headChannelEdge 3 .a false 0) { pairing with pending := [.start, .headChannelEdge 3 .b true 0] }).heads[(3 : Fin 8)].seq =
      pairing.heads[(3 : Fin 8)].seq + 1 ∧
    (run (.headChannelEdge 3 .a false 0) { pairing with pending := [.headChannelEdge 3 .b true 0, .start] }).heads[(3 : Fin 8)].owed =
      true := by decide +kernel

/-- A second pulse of channel A ends while its first still waits for channel B's. -/
def secondPulse : State :=
  withHead (fun r => { r with a := { r.a with unpaired := some ⟨⟨0, 0⟩, ⟨1, 1⟩⟩ } }) overlapping

theorem test_witness_SecondPulse :
    ((secondPulse.heads[(3 : Fin 8)].channel .a).level = true ∧ secondPulse.named 3 = true ∧
      secondPulse.heads[(3 : Fin 8)].failed = false ∧ (secondPulse.heads[(3 : Fin 8)].channel .a).since = some ⟨0, 0⟩ ∧
      secondPulse.pminMicros ≤ microsFrom ⟨0, 0⟩ ⟨2, 0⟩ ∧
      microsFrom ⟨0, 0⟩ ⟨2, 0⟩ ≤ (secondPulse.heads[(3 : Fin 8)].channel .a).limit ∧
      (secondPulse.heads[(3 : Fin 8)].channel .b).unpaired = none ∧
      (secondPulse.heads[(3 : Fin 8)].channel .a).unpaired = some ⟨⟨0, 0⟩, ⟨1, 1⟩⟩ ∧
      (secondPulse.heads[(3 : Fin 8)].channel .b).since = some ⟨1, 0⟩ ∧ momentBefore ⟨1, 0⟩ ⟨1, 1⟩ = true) ∧
    (momentBefore ⟨2, 0⟩ ⟨2, 0⟩ = false ∧ momentBefore ⟨1, 999⟩ ⟨2, 0⟩ = true) ∧
    ((run (.headChannelEdge 3 .a false 0) secondPulse).heads[(3 : Fin 8)].a.unpaired = some ⟨⟨0, 0⟩, ⟨1, 1⟩⟩ ∧
      (run (.headChannelEdge 3 .a false 0) secondPulse).heads[(3 : Fin 8)].oneChannel = [2]) := by decide +kernel

/-- Head 3 owing a COUNT, with so many axles since its last one, beside a CHECKED standby bank that declares no DP. -/
def activating (axles : Nat) (pending : Bool) : State :=
  { withHead (fun r => { r with owed := true, restarted := false, seq := 7, inc := axles }) (standbyState .checked pending) with
    pending := [.headChannelEdge 3 .b false 0] }

theorem test_witness_Swap_owed :
    ((activating 1 true).named 3 = true ∧ (activating 1 true).activationCondition = true ∧
      (activating 1 true).owedCarried.activationCondition = false) ∧
    ((activating 0 true).activationCondition = true ∧ (activating 0 true).owedCarried.activationCondition = true) ∧
    (∀ h : Fin 8, (standbyState .checked true).heads[h].owed = false) ∧
    ((activating 1 false).store.pending = false ∧ (activating 1 false).activationCondition = true ∧
      (activating 1 false).store.standby.state = .checked) := by decide +kernel

/-- R72: the axle of a head that the new plan does not name keeps the swap off until its COUNT has gone out, at the last edge. -/
theorem test_activation_waits_for_an_owed_axle :
    (run (.planActivate 1 310 6) (activating 1 false)).store.selected = .a ∧
    (run (.planActivate 1 310 6) (activating 1 false)).store.pending = true ∧
    (run (.planActivate 1 310 6) (activating 1 false)).heads[(3 : Fin 8)].owed = true := by decide +kernel

set_option maxRecDepth 40000 in
/-- R72: a change that leaves the condition as it is goes out before the swap that no longer names the head. -/
theorem test_activation_carries_what_is_owed :
    (run (.planActivate 1 310 6) (activating 0 false)).store.selected = .b ∧
    (run (.planActivate 1 310 6) (activating 0 false)).named 3 = false ∧
    (run (.planActivate 1 310 6) (activating 0 false)).heads[(3 : Fin 8)].owed = false ∧
    (run (.planActivate 1 310 6) (activating 0 false)).heads[(3 : Fin 8)].seq = 8 := by decide +kernel

/-- The last two axles of a movement in the approach section of a TIMING demand, an activation waiting. -/
def lastAxles : State :=
  { swapping (some smallPlan) with
    sects := [{ clearSect with state := .occupied, count := 2 }, clearSect]
    demands := [{ idleDemand with state := .timing, t1 := some 0, point := some 1, pointTime := some 0 }] }

set_option maxRecDepth 40000 in
/-- R20, R61, R109: one axle in and three out make the section CLEAR and the demand IDLE, which makes the swap; the passage of
the axle that came in then starts the demand of the new plan. -/
theorem test_swap_comes_between_the_events_of_a_count :
    (lastAxles.deliver 0 (delivery 255 1 3 .ok false)).store.selected = .b ∧
    (lastAxles.deliver 0 (delivery 255 1 3 .ok false)).store.pending = false ∧
    (lastAxles.deliver 0 ⟨⟨1, 1, 3, .ok, false⟩, 0, .box, some 5⟩).demands.map (fun d => (d.state, d.point, d.t1)) =
      [(.timing, some 1, some 5)] := by decide +kernel

theorem test_witness_Delivered_after_a_swap :
    (otherPlan.dps ≠ openState.dpTable ∧ otherPlan.dps[1]? = some ⟨.head, .localHead, 131, 3, 0⟩ ∧
      openState.dpTable[1]? = some ⟨.head, .localHead, 131, 3, 0⟩ ∧
      keepsDp ⟨.head, .localHead, 131, 3, 0⟩ ⟨.head, .localHead, 131, 3, 0⟩ = true ∧
      keepsDp ⟨.line, .box, 61, 0, 0⟩ ⟨.head, .localHead, 131, 3, 0⟩ = false) ∧
    (otherPlan.dps[2]? = some ⟨.line, .field, 62, 0, 1⟩ ∧
      ∀ e ∈ openState.dpTable, keepsDp e ⟨.line, .field, 62, 0, 1⟩ = false) ∧
    ((openState.handPassage otherPlan.dps 1 .inc (some 5)).demands.map (fun d => (d.state, d.point)) = [(.warning, some 2)] ∧
      (openState.handPassage otherPlan.dps 2 .inc (some 5)).demands = openState.demands ∧
      (openState.handPassage openState.dpTable 0 .inc (some 5)).demands.map (fun d => (d.state, d.point)) =
        [(.timing, some 1)]) := by decide +kernel

/-- Both channels of head 3 timed from one moment, channel B's pulse waiting. -/
def together : State :=
  withHead (fun r => { r with
    a := ⟨true, some ⟨0, 1⟩, 400000, none, none⟩
    b := ⟨false, none, 400000, none, some ⟨⟨0, 1⟩, ⟨2, 0⟩⟩⟩ }) (atTime 3 openState)

/-- Head 3 with three one-channel times, the first of which has just left the last 60000 ms or has not. -/
def nearlyFailed (first : Time) : State := withHead (fun r => { r with oneChannel := [first, 10, 20] }) (atTime 60000 openState)

theorem test_witness_OneChannelEvents :
    ((together.heads[(3 : Fin 8)].channel .b).unpaired = some ⟨⟨0, 1⟩, ⟨2, 0⟩⟩ ∧
      momentBefore ⟨0, 1⟩ ⟨2, 0⟩ = true ∧ together.pminMicros ≤ microsFrom ⟨0, 1⟩ ⟨3, 0⟩ ∧ microsFrom ⟨0, 1⟩ ⟨3, 0⟩ ≤ (together.heads[(3 : Fin 8)].channel .a).limit) ∧
    ((pairing.heads[(3 : Fin 8)].channel .b).unpaired ≠ none ∧ microsFrom ⟨0, 1⟩ ⟨2, 0⟩ < pairing.pminMicros) ∧
    (((nearlyFailed 0).heads[(3 : Fin 8)].oneChannel.filter fun t => later (after t 60000) 60000) = [10, 20] ∧
      ((nearlyFailed 1).heads[(3 : Fin 8)].oneChannel.filter fun t => later (after t 60000) 60000) = [1, 10, 20] ∧
      later (1 : Time) (60000 - 60000) = true) := by decide +kernel

theorem test_fourth_one_channel_event_fails_the_head :
    ((nearlyFailed 0).oneChannel 3).heads[(3 : Fin 8)].failed = false ∧
    ((nearlyFailed 1).oneChannel 3).heads[(3 : Fin 8)].cause = .oneChannel ∧
    (run (.headChannelEdge 3 .a false 0) together).heads[(3 : Fin 8)].inc = 0 ∧
    (run (.headChannelEdge 3 .a false 0) together).heads[(3 : Fin 8)].oneChannel = [3] := by decide +kernel

/-- Head 3 reporting DEGRADED with its only one-channel time 60000 ms old. -/
def noisy : State := withHead (fun r => { r with oneChannel := [0], sentHealth := .degraded }) (atTime 60000 openState)

theorem test_witness_OneChannelExpiry : noisy.named 3 = true ∧ noisy.heads[(3 : Fin 8)].failed = false ∧
    noisy.heads[(3 : Fin 8)].sentHealth = .degraded ∧
    (∀ x ∈ noisy.heads[(3 : Fin 8)].oneChannel, reached (after x 60000) noisy.clock = true) ∧ NoActivation noisy := by
  refine ⟨by decide +kernel, by decide +kernel, by decide +kernel, ?_, rfl⟩
  have h : noisy.heads[(3 : Fin 8)].oneChannel = [0] := by decide +kernel
  rw [h]
  intro x hx
  have hx' : x = 0 := by simpa using hx
  subst hx'
  decide +kernel

/-- Head 3 FAILED with both channels inactive. -/
def stuckHead : State := withHead (fun r => { r with failed := true, cause := .stuck, sentHealth := .failed }) openState

theorem test_witness_ResetHead : (7 < (8 : Byte).toNat) ∧ ((0 : Byte).toNat = (0 : Fin 8).val ∧ openState.named 0 = false) ∧
    ((3 : Byte).toNat = (3 : Fin 8).val ∧ openState.named 3 = true ∧ openState.heads[(3 : Fin 8)].failed = false) ∧
    (stuckHead.named 3 = true ∧ stuckHead.heads[(3 : Fin 8)].failed = true ∧
      stuckHead.heads[(3 : Fin 8)].a.level = false ∧ stuckHead.heads[(3 : Fin 8)].b.level = false ∧ NoActivation stuckHead) := by
  decide +kernel

/-! ### Hypotheses met: sections and demands -/

def sweptSect : SectRec := { clearSect with state := .restoring, balance := 999, entered := true }

theorem test_witness_SectionDeltas : (clearSect.state = .clear ∧ clearSect.count + 0 < 1) ∧
    (512 + 999 < (1000 : Nat) + 512 ∧ clearSect.count + 512 = 512) ∧
    (clearSect.count + 999 = 0 + 999 ∧ clearSect.count + 1 = 0 + 1) ∧
    (sweptSect.state = .restoring ∧ sweptSect.balance + 0 < 1000 ∧ 0 + 999 < sweptSect.balance + 1 ∧
      sweptSect.balance + 0 = 999 ∧ sweptSect.entered = true ∧ sweptSect.balance + 0 = 0 + 999) ∧
    ({ clearSect with state := .disturbed } : SectRec).state = .disturbed ∧
    (({ sweptSect with balance := 0, entered := false } : SectRec).balance + 0 = 0 + 0 ∧
      (({ sweptSect with balance := 0, entered := false } : SectRec).entered || decide (0 < 0)) = false) := by decide

def doubtState : State :=
  { openState with sects := [{ clearSect with state := .disturbed }, clearSect] }

theorem test_witness_RestoreSection : (openState.sectTable[(2 : Byte).toNat]? = none) ∧
    (doubtState.sectTable[(0 : Byte).toNat]? = some ⟨14, 0, .approach, true, [⟨0, .inc⟩, ⟨1, .dec⟩]⟩ ∧
      doubtState.sects[(0 : Byte).toNat]? = some { clearSect with state := .disturbed } ∧ 1 < (2 : Byte).toNat) ∧
    (openState.sects[(0 : Byte).toNat]? = some clearSect ∧ clearSect.state ≠ .disturbed) ∧
    ((∀ b ∈ [Bound.mk 0 .inc, ⟨1, .dec⟩], ∃ x, doubtState.dps[b.dp]? = some x ∧ x.state = .live) ∧
      neighboursClear 0 ⟨14, 0, .approach, true, [⟨0, .inc⟩, ⟨1, .dec⟩]⟩ doubtState.sectTable doubtState.sects = true ∧
      NoActivation doubtState) ∧
    neighboursClear 0 ⟨14, 0, .approach, true, [⟨0, .inc⟩, ⟨1, .dec⟩]⟩ islandTaken.sectTable islandTaken.sects = false := by
  refine ⟨by decide +kernel, by decide +kernel, by decide +kernel, ⟨?_, by decide +kernel, rfl⟩, by decide +kernel⟩
  intro b hb
  have h : b = ⟨0, .inc⟩ ∨ b = ⟨1, .dec⟩ := by simpa using hb
  rcases h with rfl | rfl
  · exact ⟨liveDp, by decide +kernel, rfl⟩
  · exact ⟨{ liveDp with port := .localHead }, by decide +kernel, rfl⟩

/-- SECTION_DISTURBED of the doubtful section. -/
def disturbedRecord : FaultRec := FaultRec.created 0 10000 .sectionDisturbed ⟨.sect, 0⟩ .urgent

theorem test_restore_clears_the_fault_by_direct_alone :
    ((run (.restoreSection 1 0 1) (withTable (oneRecord disturbedRecord) doubtState)).faults.get 0).map (·.active) = some false ∧
    ((run (.restoreSection 1 0 0) (withTable (oneRecord disturbedRecord) doubtState)).faults.get 0).map (·.active) = some true ∧
    (run (.restoreSection 1 0 0) doubtState).sects.map (·.state) = [.restoring, .clear] := by decide +kernel

/-- The demand of the small crossing. -/
def smallCtx : DemandCtx := openState.ctx smallPlan 0 ⟨0, .inc, [⟨0, 24000⟩, ⟨1, 18000⟩], [0], 2, false, 0⟩

theorem test_witness_Prediction : (6000 = distanceOf smallCtx.entry 1 - distanceOf smallCtx.entry 2) ∧
    (since 9 0 < 10) ∧ (10 ≤ since 10 0 ∧ (smallCtx.plan.vLimit : Int) * since 8571 0 < (6000 : Nat) * 1000) ∧
    (10 ≤ since 8572 0 ∧ ((6000 : Nat) * 1000 : Int) ≤ smallCtx.plan.vLimit * since 8572 0) := by decide +kernel

/-- A demand with three points under a plan of the given LEAD, its latest start at the third, its stop at the second. -/
def longCtx (lead : Nat) (sight : Sight) : DemandCtx :=
  { smallCtx with
    now := 100000, plan := { smallPlan with lead := lead }, sight := sight
    entry := { smallCtx.entry with points := [⟨0, 24000⟩, ⟨1, 18000⟩, ⟨2, 9000⟩], latest := 3, stopPermitted := true, stopAt := 2 } }

def clearSight : Sight := ⟨true, false, true, false⟩
def doubtSight : Sight := ⟨false, true, false, false⟩
def occupiedSight : Sight := ⟨false, false, false, true⟩
def approachSight : Sight := ⟨false, false, true, false⟩

theorem test_witness_Passages :
    ((longCtx 30000 occupiedSight).sight.islandOcc = true ∧ (longCtx 30000 clearSight).sight.islandOcc = false ∧
      (longCtx 30000 clearSight).entry.stopPermitted = true ∧
      later (40000 + BitVec.ofNat 32 60000) (100000 : Time) = false ∧ later (40001 + BitVec.ofNat 32 60000) (100000 : Time) = true) ∧
    (1 ≠ (longCtx 30000 clearSight).entry.latest ∧ 3 = (longCtx 30000 clearSight).entry.latest ∧
      2 ≤ (longCtx 30000 clearSight).entry.stopAt ∧ (longCtx 30000 clearSight).entry.stopAt < 3) ∧
    ((longCtx 30000 clearSight).predict 1 82000 2 94000 = some (500, 100000) ∧ later 100000 (100000 : Time) = false ∧
      (longCtx 30000 clearSight).predict 1 82001 2 94001 = some (500, 100001) ∧ later 100001 (100000 : Time) = true ∧
      (longCtx 30000 clearSight).predict 1 88000 2 94000 = none) ∧
    ((longCtx 1000 clearSight).predict 2 82000 3 100000 = some (500, 117000) ∧ later 117000 (100000 : Time) = true) ∧
    ((longCtx 18000 clearSight).predict 2 82001 3 100001 = some (500, 100001) ∧ later 100001 (100001 : Time) = false) := by
  decide +kernel

theorem test_witness_Passages_latest :
    (3 = (longCtx 30000 clearSight).entry.latest ∧ (3 : Nat) ≠ 1 ∧ later 100000 (99000 : Time) = true ∧
      later 100000 (100000 : Time) = false) ∧
    ((longCtx 30000 clearSight).predict 2 88000 3 99000 = none) ∧
    ((longCtx 18500 clearSight).predict 2 80500 3 98500 = some (500, 98000) ∧ later 98000 (100000 : Time) = false ∧
      later 98000 (98500 : Time) = false ∧ later 100000 (98000 : Time) = true) ∧
    ((longCtx 17000 clearSight).predict 2 80500 3 98500 = some (500, 99500) ∧ later 99500 (100000 : Time) = false ∧
      later 99500 (98500 : Time) = true) := by decide +kernel

theorem test_cap_lowers_a_computed_start_twice_late :
    ((longCtx 17000 occupiedSight).passage 3 (some 98500) { idleDemand with state := .timing, point := some 2, pointTime := some 80500 }) =
      ({ idleDemand with state := .clearing, cause := .prediction, point := some 3, pointTime := some 98500, speed := some 500,
                         ts := some 98500, warnBegan := 100000, progress := 100000, lastWarning := some 0, late := true },
       [.moment .lateStart ⟨.approach, 0⟩ .info, .moment .shortWarning ⟨.approach, 0⟩ .info,
        .moment .lateStart ⟨.approach, 0⟩ .info]) := by decide +kernel

theorem test_witness_SectionChanges :
    (doubtSight.doubt = true ∧ clearSight.doubt = false ∧ occupiedSight.doubt = false ∧ approachSight.doubt = false) ∧
    (occupiedSight.islandOcc = true ∧ clearSight.islandOcc = false ∧ clearSight.allClear = true ∧ approachSight.islandOcc = false ∧
      approachSight.allClear = false ∧ clearSight.islandClear = true ∧ occupiedSight.islandClear = false ∧
      approachSight.islandClear = true) := by decide

theorem test_latest_start_caps_the_warning :
    ((longCtx 1000 clearSight).passage 3 (some 100000) { idleDemand with state := .predicted, point := some 2, pointTime := some 82000 }).1.ts =
      some 100000 := by decide +kernel

def predicted : State := { openState with demands := [{ idleDemand with state := .predicted, ts := some 40000 }] }
def standingDue : State := { openState with demands := [{ idleDemand with state := .warning, standing := some 60000 }] }

theorem test_witness_DemandTimers :
    (predicted.store.plan = some smallPlan ∧ smallPlan.approaches[0]? = some smallCtx.entry ∧
      predicted.demands[0]? = some { idleDemand with state := .predicted, ts := some 40000 } ∧ NoActivation predicted ∧
      due (some 40000) 40000 = true ∧ islandStateOf smallPlan openState.sects 0 ≠ .occupied ∧
      islandStateOf smallPlan islandTaken.sects 0 = .occupied ∧ smallCtx.entry.stopPermitted = false) ∧
    (standingDue.demands[0]? = some { idleDemand with state := .warning, standing := some 60000 } ∧
      idleDemand.forced = false ∧ due (some 60000) 60000 = true ∧ NoActivation standingDue) := by decide +kernel

/-! ### Hypotheses met: the crossing and the authority -/

/-- A crossing state with its state timer and its exit timer at 3000. -/
def timed (c : CrossingState) (now : Time) : State :=
  atTime now { inState c with
    crossing := { (inState c).crossing with stateTimer := some 3000, exitTimer := some 3000, loweringStart := some 0 } }

theorem test_witness_Amber : (timed .amber 2999).crossing.state = .amber ∧
    due (timed .amber 2999).crossing.stateTimer 2999 = false ∧ due (timed .amber 3000).crossing.stateTimer 3000 = true ∧
    (timed .amber 3000).lights.command ≠ .flash := by decide +kernel

theorem test_witness_RedLead : (timed .redLead 2999).crossing.state = .redLead ∧
    due (timed .redLead 2999).crossing.stateTimer 2999 = false ∧
    due (timed .redLead 3000).crossing.stateTimer 3000 = true ∧
    (timed .redLead 3000).machinePresent 0 = true ∧ (timed .redLead 3000).machinePresent 3 = false := by decide +kernel

/-- The entry machine down, the zone as given. -/
def entryDown (zone : Bool) : State :=
  { timed .lowerEntry 3000 with
    barrier := ⟨(Vector.replicate 4 upMachine).set 0 { upMachine with state := .downProved, up := false, down := true },
      ⟨zone, false, none, none, false⟩⟩ }

theorem test_witness_ExitTimer :
    ((timed .lowerEntry 3000).crossing.state = .lowerEntry ∧ due (timed .lowerEntry 3000).crossing.exitTimer 3000 = true ∧
      (timed .lowerEntry 3000).crossing.exitRun = false ∧ (timed .lowerEntry 3000).entryDone = false) ∧
    ((entryDown true).entryDone = true ∧ (entryDown true).barrier.zone.occupied = true ∧
      (entryDown true).barrier.zone.waiting = false) ∧
    ((entryDown false).entryDone = true ∧ (entryDown false).barrier.zone.occupied = false) := by decide +kernel

/-- The entry machine down after T_exit has run, the zone as given. -/
def exitHasRun (zone : ZoneRec) : State :=
  { entryDown false with crossing := { (entryDown false).crossing with exitRun := true }, barrier := { (entryDown false).barrier with zone := zone } }

theorem test_witness_MachineChange_lowerEntry :
    ((timed .lowerEntry 3000).entryDone = false ∧ (entryDown false).crossing.exitRun = false) ∧
    (∀ z ∈ [ZoneRec.mk false false none none false, ⟨true, false, none, none, false⟩, ⟨true, true, some 0, some 15000, false⟩],
      (exitHasRun z).crossing.state = .lowerEntry ∧ (exitHasRun z).entryDone = true ∧ (exitHasRun z).crossing.exitRun = true ∧
        (exitHasRun z).barrier.zone = z) ∧
    (exitHasRun ⟨false, false, none, none, false⟩).machinesChanged.crossing.state = .lowerExit := by decide +kernel

theorem test_witness_Figures :
    (smallCtx.entry.points[1]? = some ⟨1, 18000⟩ ∧ 2374 + smallPlan.lead = 18000 * 1000 / smallPlan.vLine ∧
      0 + ({ smallPlan with lead := 32374 } : Plan).lead = 18000 * 1000 / smallPlan.vLine) ∧
    figureOf smallPlan smallCtx.entry { idleDemand with state := .timing } = .margin 2374 ∧
    figureOf smallPlan smallCtx.entry { idleDemand with state := .predicted, ts := some 7 } = .at 7 ∧
    figureOf smallPlan smallCtx.entry idleDemand = .none ∧
    (openState.store.plan = some smallPlan ∧ smallPlan.approaches[0]? = some smallCtx.entry ∧
      openState.demands[0]? = some idleDemand) := by decide +kernel

theorem test_witness_OpeningCheck :
    ((inState .closed).crossing.state = .closed ∧ (inState .closed).mayOpen = true) ∧
    (State.mayOpen { warned with crossing := { warned.crossing with state := .degraded } } = false) := by decide +kernel

/-- The present machines in two states, under a crossing state. -/
def machinesIn (c : CrossingState) (m0 m1 : MachineState) : State :=
  { inState c with barrier := ⟨(Vector.replicate 4 upMachine).set 0 { upMachine with state := m0, up := false } |>.set 1 { upMachine with state := m1, up := false },
    openState.barrier.zone⟩ }

theorem test_witness_Closing :
    ((machinesIn .lowerExit .lowering .downProved).crossing.state = .lowerExit ∧
      (machinesIn .lowerExit .lowering .downProved).machinePresent 0 = true ∧
      (machinesIn .lowerExit .lowering .downProved).barrier.machines[(0 : Fin 4)].state = .lowering) ∧
    (∀ s ∈ [machinesIn .lowerExit .downProved .failed, machinesIn .lowerExit .downProved .downProved],
      ∀ i : Fin 4, s.machinePresent i = true → s.barrier.machines[i].state = .downProved ∨ s.barrier.machines[i].state = .failed) ∧
    (∀ s ∈ [machinesIn .closed .failed .downProved, machinesIn .degraded .failed .downProved],
      ∃ i : Fin 4, s.machinePresent i = true ∧ s.barrier.machines[i].state = .failed) ∧
    (∀ s ∈ [machinesIn .closed .downProved .downProved, machinesIn .degraded .downProved .downProved],
      ∀ i : Fin 4, s.machinePresent i = true → s.barrier.machines[i].state = .downProved) ∧
    (∃ i : Fin 4, (machinesIn .raising .raising .upProved).machinePresent i = true ∧
      (machinesIn .raising .raising .upProved).barrier.machines[i].state ≠ .upProved ∧
      (machinesIn .raising .raising .upProved).barrier.machines[i].state ≠ .failed) ∧
    (∀ i : Fin 4, (machinesIn .raising .failed .upProved).machinePresent i = true →
      (machinesIn .raising .failed .upProved).barrier.machines[i].state = .upProved ∨
      (machinesIn .raising .failed .upProved).barrier.machines[i].state = .failed) ∧
    ((machinesIn .raising .raising .upProved).causes = [] ∧ State.causes { warned with crossing := { warned.crossing with state := .raising } } ≠ []) := by
  decide +kernel

theorem test_closed_and_degraded :
    (machinesIn .lowerExit .downProved .failed).machinesChanged.crossing.state = .raising ∧
    (State.machinesChanged { ownedBy .remote (machinesIn .lowerExit .downProved .failed) with
      authority := { openState.authority with owner := .remote, remoteRequest := true } }).crossing.state = .degraded := by decide +kernel

theorem test_witness_Elect :
    ((inState .amber).locked = true ∧ openState.winner = openState.authority.owner ∧ openState.locked = false) ∧
    (State.winner { openState with authority := { openState.authority with remoteRequest := true } } ≠ openState.authority.owner) := by
  decide +kernel

theorem test_witness_Winner : ∃ (eligible : Owner → Prop) (priority : Owner → Nat),
    (∀ o, eligible o ↔ (o = .auto ∨
      (o = .localPanel ∧ openState.authority.key = true ∧ openState.authority.localRelease = true ∧
        openState.par false Plan.panelFitted = true) ∨
      (o = .remote ∧ openState.authority.remoteRequest = true ∧ openState.par false Plan.remotePermitted = true) ∨
      (o = .test ∧ openState.authority.testRequest = true ∧ openState.par false Plan.testPermitted = true))) ∧
    priority .auto = 0 ∧ priority .test = 1 ∧ priority .remote = 2 ∧ priority .localPanel = 3 :=
  ⟨_, fun o => match o with | .auto => 0 | .test => 1 | .remote => 2 | .localPanel => 3, fun _ => Iff.rfl, rfl, rfl, rfl, rfl⟩

theorem test_witness_Requests :
    (openState.par false Plan.remotePermitted = true ∧
      { openState.authority with remoteRequest := true } ≠ openState.authority ∧ NoActivation openState) ∧
    ({ openState.authority with remoteRequest := false } = openState.authority) ∧
    ({ openState.authority with key := false } = openState.authority ∧
      { openState.authority with key := true } ≠ openState.authority) ∧
    (State.reset.par false Plan.remotePermitted = false ∧ State.reset.par false Plan.testPermitted = false ∧
      State.reset.par false Plan.panelFitted = false) ∧
    (openState.par false Plan.testPermitted = true ∧ openState.par false Plan.panelFitted = true) := by decide +kernel

theorem test_witness_OwnersCommands :
    (openState.authority.owner ≠ .remote ∧ openState.authority.owner ≠ .localPanel ∧
      openState.crossing.state ≠ .closed ∧ openState.crossing.state ≠ .degraded) ∧
    ((ownedBy .remote openState).authority.owner = .remote ∧ (ownedBy .remote openState).crossing.state = .opened ∧
      NoActivation (ownedBy .remote openState)) ∧
    ((ownedBy .remote (inState .degraded)).authority.owner = .remote ∧
      (ownedBy .remote (inState .degraded)).crossing.state = .degraded) ∧
    ((ownedBy .localPanel openState).authority.owner = .localPanel ∧
      (ownedBy .localPanel openState).crossing.state = .opened ∧ openState.pins.panelClose = false ∧
      openState.pins.panelOpen ≠ true) ∧
    ((ownedBy .localPanel (inState .closed)).crossing.state = .closed) := by decide +kernel

def lampTesting : State :=
  { inState .testActive with
    authority := { openState.authority with owner := .test, step := .lampTest, phase := .flashing, stepEnd := some 5000 } }

theorem test_witness_TestSteps :
    (openState.authority.step ≠ .lampTest ∧ due (some 5000) 4999 = false) ∧
    (lampTesting.authority.step = .lampTest ∧ due lampTesting.authority.stepEnd 5000 = true ∧ NoActivation lampTesting) ∧
    (openState.authority.owner ≠ .test) ∧
    ((ownedBy .test openState).authority.owner = .test ∧ 1 < (2 : Byte).toNat ∧
      (∀ i : Fin 4, (4 : Byte).toNat = i.val → openState.machinePresent i = false) ∧
      ∀ g : Fin 4, State.reset.groupPresent g = false) ∧
    ((ownedBy .test openState).crossing.state = .opened ∧ (∀ d ∈ openState.demands, d.state = .idle) ∧
      (∃ g : Fin 4, openState.groupPresent g = true) ∧ (1 : Byte).toNat = (1 : Fin 4).val ∧
      openState.machinePresent 1 = true ∧ openState.barrier.machines[(1 : Fin 4)].state = .upProved ∧
      openState.role 1 = .exit ∧ openState.barrier.zone.occupied = false) := by decide +kernel

/-- A MACHINE CYCLE of the exit machine in a phase, its machine and the zone as given. -/
def cycling (phase : StepPhase) (m : MachineState) (up zone : Bool) : State :=
  { inState .testActive with
    authority := { openState.authority with owner := .test, testRequest := true, step := .machineCycle 1, phase := phase }
    barrier := ⟨(Vector.replicate 4 upMachine).set 1 { upMachine with state := m, up := up }, ⟨zone, false, none, none, false⟩⟩ }

theorem test_witness_TestStep_refused :
    ((ownedBy .test (inState .closed)).crossing.state ≠ .opened ∧ ∃ g : Fin 4, (ownedBy .test (inState .closed)).groupPresent g = true) ∧
    (∃ d ∈ (ownedBy .test warned).demands, d.state ≠ .idle) ∧
    ((ownedBy .test (machinesIn .opened .halted .upProved)).machinePresent 0 = true ∧
      (ownedBy .test (machinesIn .opened .halted .upProved)).barrier.machines[(0 : Fin 4)].state ≠ .upProved ∧
      (cycling .none .upProved true true).role 1 = .exit ∧ (cycling .none .upProved true true).barrier.zone.occupied = true) := by
  decide +kernel

theorem test_witness_Cycle :
    (∀ s ∈ [cycling .lowering .failed true false, cycling .raising .upProved true false, cycling .lowering .downProved false false,
      cycling .lowering .lowering false true, cycling .raising .raising false false, cycling .raising .halted false false],
      s.authority.step = .machineCycle 1 ∧ s.role 1 = .exit ∧ s.crossing.state = .testActive) ∧
    ((cycling .lowering .downProved false false).authority.phase = .lowering ∧
      (cycling .lowering .downProved false false).barrier.machines[(1 : Fin 4)].up = false ∧
      (cycling .lowering .lowering false true).barrier.zone.occupied = true ∧
      (cycling .raising .upProved true false).authority.phase = .raising) ∧
    ((cycling .raising .raising false false).causes = [] ∧ lampTesting.authority.step ≠ .machineCycle 1 ∧
      State.causes { cycling .raising .raising false false with
        crossing := { warned.crossing with state := .testActive }, demands := warned.demands } ≠ []) := by decide +kernel

/-! ### Hypotheses met: lights, machines, the zone, status -/

theorem test_witness_HalfPeriods : reached (after openState.lights.began openState.lights.length) 499 = false ∧
    reached (after openState.lights.began openState.lights.length) 500 = true := by decide +kernel

/-- The group driven and lit at the sample point of its first half-period. -/
def driven : State :=
  atTime 250 { openState with lights := { openState.lights with
      command := .flash
      groups := Vector.replicate 4 ⟨Lamp.start, { Lamp.start with driven := true }, Lamp.start⟩ } }

theorem test_witness_SamplePoints : (openState.lights.sampleDue 249 = false) ∧
    (State.reset.lights.sampleDue 250 = true ∧ State.reset.store.plan = none) ∧
    (driven.store.plan = some smallPlan ∧ driven.lights.sampleDue driven.clock = true ∧ driven.lights.command ≠ .noPlan ∧
      NoActivation driven ∧ smallPlan.groups[(0 : Fin 4)].present = true ∧ smallPlan.groups[(1 : Fin 4)].present = false ∧
      (driven.lights.groups[(0 : Fin 4)].lamp .redA).driven = true ∧
      (driven.lights.groups[(0 : Fin 4)].lamp .redB).driven = false) ∧
    ((limitsOf smallPlan.groups[(0 : Fin 4)] .redA).imin = 200 ∧ (limitsOf smallPlan.groups[(0 : Fin 4)] .redA).imax = 900) := by
  decide +kernel

/-- Both reds of a group failed. -/
def darkGroup : LightGroup :=
  ⟨Lamp.start, { Lamp.start with state := .failedOpen }, { Lamp.start with state := .failedShort, enabled := false, lit := true }⟩

theorem test_lamp_and_group_faults :
    lightActs openState.lights { openState.lights with groups := openState.lights.groups.set 1 darkGroup } =
      [.raise .lampFailed ⟨.lamp, 4⟩ .advisory, .raise .lampShort ⟨.lamp, 5⟩ .advisory, .raise .lampLitWhenDark ⟨.lamp, 5⟩ .urgent,
        .raise .lightGroupFailed ⟨.group, 1⟩ .safety] ∧
    lightActs { openState.lights with groups := openState.lights.groups.set 1 darkGroup } openState.lights =
      [.clear .lampFailed ⟨.lamp, 4⟩, .clear .lampShort ⟨.lamp, 5⟩, .clear .lampLitWhenDark ⟨.lamp, 5⟩,
        .clear .lightGroupFailed ⟨.group, 1⟩] := by decide +kernel

def shorted : State :=
  { openState with lights := { openState.lights with
      groups := Vector.replicate 4 ⟨Lamp.start, Lamp.start, { Lamp.start with state := .failedShort, enabled := false }⟩ } }

theorem test_witness_ResetLamp : (11 < (12 : Byte).toNat) ∧
    ((11 : Byte).toNat = 3 * (3 : Fin 4).val + LampKind.redB.place ∧ shorted.groupPresent 3 = false) ∧
    ((0 : Byte).toNat = 3 * (0 : Fin 4).val + LampKind.amber.place ∧ shorted.groupPresent 0 = true ∧
      (shorted.lights.groups[(0 : Fin 4)].lamp .amber).state = .unknown) ∧
    ((2 : Byte).toNat = 3 * (0 : Fin 4).val + LampKind.redB.place ∧
      (shorted.lights.groups[(0 : Fin 4)].lamp .redB).state = .failedShort ∧ NoActivation shorted) := by decide +kernel

theorem test_witness_MachineCommands : ({ upMachine with state := .failed } : MachineRec).state = .failed ∧
    upMachine.state = Dir.raise.proved ∧ MachineRec.noPlanLowering.state = Dir.lower.moving ∧
    (upMachine.state = Dir.lower.other.proved ∧ upMachine.target .lower = false) ∧
    (({ upMachine with state := .halted, down := true } : MachineRec).state = .halted ∧
      ({ upMachine with state := .halted, down := true } : MachineRec).target .lower = true) := by decide

/-- Machine 0 moving down with its boom detected. -/
def lowering : State :=
  openState.setMachine 0 { MachineRec.noPlanLowering with boom := true }

def failedMachine : MachineRec :=
  { upMachine with state := .failed, cause := .noResponse, commanded := none, failTime := some 0 }

theorem test_witness_DetectorChanges :
    (upMachine.up = true ∧ upMachine.down = false ∧ upMachine.boom = true) ∧
    (openState.supervised 3 = false ∧ openState.supervised 0 = true ∧ openState.machinePresent 0 = true) ∧
    ((openState.setMachine 0 failedMachine).barrier.machines[(0 : Fin 4)].state = .failed) ∧
    (openState.barrier.machines[(0 : Fin 4)].state ≠ .failed ∧ openState.barrier.machines[(0 : Fin 4)].boom = true) ∧
    ¬ (upMachine.up = true ∧ upMachine.down = true) ∧
    (lowering.barrier.machines[(0 : Fin 4)].state = Dir.lower.moving ∧ lowering.supervised 0 = true) := by decide +kernel

theorem test_witness_DetectorChanges_moved :
    (lowering.barrier.machines[(0 : Fin 4)].state = Dir.lower.moving ∧ lowering.supervised 0 = true ∧
      lowering.barrier.machines[(0 : Fin 4)].boom = true ∧ lowering.barrier.machines[(0 : Fin 4)].up = false) ∧
    (openState.barrier.machines[(0 : Fin 4)].state = Dir.raise.proved ∧
      openState.barrier.machines[(0 : Fin 4)].commanded = some .raise ∧ openState.supervised 0 = true ∧
      ({ upMachine with commanded := none } : MachineRec).commanded ≠ some .raise) ∧
    ((machinesIn .opened .halted .upProved).barrier.machines[(0 : Fin 4)].state = .halted ∧
      (machinesIn .opened .halted .upProved).supervised 0 = true) := by decide +kernel

theorem test_moved_off_its_end_is_driven_back :
    (run (.machineDetectorChange 0 false false true) openState).barrier.machines[(0 : Fin 4)].drive = some .raise ∧
    (run (.machineDetectorChange 0 false true true) (machinesIn .opened .halted .upProved)).barrier.machines[(0 : Fin 4)].state =
      .downProved := by decide +kernel

theorem test_witness_MachineDeadlines :
    (lowering.barrier.machines[(0 : Fin 4)].leaveDue 4999 = false ∧
      lowering.barrier.machines[(0 : Fin 4)].travelDue 29999 = false) ∧
    (lowering.barrier.machines[(0 : Fin 4)].state = .lowering ∧ lowering.barrier.machines[(0 : Fin 4)].leaveMet = false ∧
      due lowering.barrier.machines[(0 : Fin 4)].leaveBy 5000 = true ∧
      due lowering.barrier.machines[(0 : Fin 4)].travelBy 30000 = true ∧ NoActivation lowering) := by decide +kernel

theorem test_machine_failed_is_raised_with_its_class :
    ((run (.travelDeadline 0) (atTime 30000 lowering)).faults.get 0).map (fun r => (r.code, r.source, r.cls)) =
      some (.machineFailed, ⟨.machine, 0⟩, .urgent) ∧
    ((run (.leaveDeadline 0) (atTime 5000 { lowering with crossing := (inState .lowerEntry).crossing })).faults.get 0).map
      (fun r => (r.code, r.source, r.cls)) = some (.machineFailed, ⟨.machine, 0⟩, .safety) := by decide +kernel

theorem test_witness_MachineEvents :
    (openState.machinePresent 0 = true ∧ openState.machinePresent 3 = false ∧ failedMachine.state = .failed ∧
      openState.barrier.machines[(0 : Fin 4)].state = .upProved ∧ MachineRec.noPlanLowering.state ≠ .upProved ∧
      MachineRec.noPlanLowering.state ≠ .failed) ∧
    ((openState.setMachine 0 failedMachine).barrier.machines[(0 : Fin 4)].state = .failed) := by decide +kernel

def failedInAmber : State := (inState .amber).setMachine 0 failedMachine

theorem test_witness_ResetMachine : (3 < (4 : Byte).toNat) ∧
    ((3 : Byte).toNat = (3 : Fin 4).val ∧ openState.machinePresent 3 = false) ∧
    ((0 : Byte).toNat = (0 : Fin 4).val ∧ openState.machinePresent 0 = true ∧
      openState.barrier.machines[(0 : Fin 4)].state ≠ .failed) ∧
    (failedInAmber.machinePresent 0 = true ∧ failedInAmber.barrier.machines[(0 : Fin 4)] = failedMachine ∧
      failedMachine.state = .failed ∧ failedMachine.boom = true ∧ ¬ (failedMachine.up = true ∧ failedMachine.down = true) ∧
      NoActivation failedInAmber ∧ failedInAmber.crossing.state = .amber) := by decide +kernel

theorem test_witness_ZoneAndCabinet :
    (openState.barrier.zone.occupied = false ∧ openState.barrier.zone.occupied ≠ true ∧ NoActivation openState) ∧
    ((timed .lowerExit 3000).crossing.state = .lowerExit) ∧ (openState.holdDue = false) ∧
    ((Barrier.mk (Vector.replicate 4 upMachine) ⟨true, true, some 0, some 15000, false⟩).zone.waiting = true ∧
      due (some 15000) 15000 = true) ∧
    (openState.pins.battLow ≠ true ∧ openState.pins.mainsOff ≠ true) := by decide +kernel

theorem test_witness_ResetMachine_directions :
    ∀ c ∈ [CrossingState.opened, .raising, .lowerEntry, .lowerExit, .closed, .degraded],
      ((inState c).setMachine 0 failedMachine).crossing.state = c ∧
      ((inState c).setMachine 0 failedMachine).machinePresent 0 = true ∧
      ((inState c).setMachine 0 failedMachine).barrier.machines[(0 : Fin 4)] = failedMachine ∧
      ((inState c).setMachine 0 failedMachine).role 0 = .entry ∧ ((inState c).setMachine 1 failedMachine).role 1 = .exit := by
  decide +kernel

theorem test_reset_machine_sends_the_direction_again :
    (run (.resetEquipmentMachine 1 0) ((inState .closed).setMachine 0 failedMachine)).barrier.machines[(0 : Fin 4)].drive = some .lower ∧
    (run (.resetEquipmentMachine 1 1) ((inState .lowerEntry).setMachine 1 failedMachine)).barrier.machines[(1 : Fin 4)].commanded =
      some .raise := by decide +kernel

/-- LOWER_EXIT with the entry machine down and the exit machine on its way. -/
def exitLowering : State :=
  let s := machinesIn .lowerExit .downProved .lowering
  { s with crossing := { s.crossing with lastDir := Vector.replicate 4 (some .lower) } }

theorem test_witness_Zone_returns :
    ((exitHasRun ⟨true, true, some 0, some 15000, true⟩).barrier.zone.occupied = true ∧
      (exitHasRun ⟨true, true, some 0, some 15000, true⟩).barrier.zone.waiting = true ∧
      (exitHasRun ⟨true, true, some 0, some 15000, true⟩).barrier.zone.condition = true ∧
      (exitHasRun ⟨true, false, none, none, false⟩).barrier.zone.waiting = false) ∧
    (exitLowering.crossing.state = .lowerExit ∧ exitLowering.barrier.zone.occupied = false ∧
      exitLowering.machinePresent 1 = true ∧ exitLowering.role 1 = .exit ∧
      exitLowering.barrier.machines[(1 : Fin 4)].state = .lowering ∧ exitLowering.crossing.lastDir[(1 : Fin 4)] ≠ some .raise) ∧
    ((machinesIn .lowerExit .lowering .downProved).barrier.machines[(1 : Fin 4)].state = .downProved ∧
      (machinesIn .lowerExit .lowering .failed).barrier.machines[(1 : Fin 4)].state = .failed) := by decide +kernel

/-- The exit machine's change to DOWN falls at the moment of the zone edge and waits behind it. -/
def zoneFirst : State := { exitLowering with pending := [.machineDetectorChange 1 false true true] }

theorem test_witness_Zone_tie :
    (zoneFirst.crossing.state = .lowerExit ∧ zoneFirst.barrier.zone.occupied = false ∧ zoneFirst.machinePresent 1 = true ∧
      zoneFirst.role 1 = .exit ∧ zoneFirst.barrier.machines[(1 : Fin 4)].state = .lowering ∧
      zoneFirst.barrier.machines[(1 : Fin 4)].down = false ∧ zoneFirst.barrier.machines[(1 : Fin 4)].boom = true ∧
      NoActivation zoneFirst ∧ zoneFirst.alreadyDown 1 = true ∧ exitLowering.alreadyDown 1 = false) ∧
    (State.alreadyDown { zoneFirst with pending := [.machineDetectorChange 0 false true true] } 1 = false ∧
      State.alreadyDown { zoneFirst with pending := [.machineDetectorChange 1 false false true] } 1 = false ∧
      State.alreadyDown { zoneFirst with pending := [.start, .machineDetectorChange 1 false true true] } 1 = false) := by decide +kernel

theorem test_zone_taken_first_leaves_the_machine_down :
    (run (.zoneEdge true) zoneFirst).barrier.machines[(1 : Fin 4)].drive = zoneFirst.barrier.machines[(1 : Fin 4)].drive ∧
    (run (.machineDetectorChange 1 false true true) (run (.zoneEdge true) zoneFirst)).crossing.state = .lowerEntry ∧
    (run (.machineDetectorChange 1 false true true) (run (.zoneEdge true) zoneFirst)).barrier.machines[(1 : Fin 4)].state =
      .downProved := by decide +kernel

theorem test_zone_turns_the_exit_machine_back :
    (run (.zoneEdge true) exitLowering).crossing.state = .lowerEntry ∧
    (run (.zoneEdge true) exitLowering).barrier.machines[(1 : Fin 4)].drive = some .raise ∧
    (run (.zoneEdge false) (exitHasRun ⟨true, true, some 0, some 15000, true⟩)).crossing.state = .lowerExit := by decide +kernel

theorem test_status_content :
    (State.statusNow { doubtState with faults := { doubtState.faults with process := .stopped } }).held = true ∧
    doubtState.statusNow.doubtful = 1 ∧ State.reset.statusNow.planId = 0 ∧ openState.statusNow.planId = 310 ∧
    predicted.statusNow.demands.take 2 = [some ⟨.predicted, false⟩, none] ∧
    openState.statusNow.machines = [some .upProved, some .upProved, none, none] := by decide +kernel

theorem test_witness_Status : (openState.statusDue = false) ∧
    (bothActive.lif.station = some 1 ∧ bothActive.lif.box.state = .active ∧ reached (after 0 1000) 1000 = true ∧
      reached (after 0 1000) 999 = false) ∧
    ((openState.hear.readback (1 : Byte).toNat (7 : Byte).toNat).isSome = true ∧
      openState.hear.readback (1 : Byte).toNat (8 : Byte).toNat = none) ∧
    ((portState .field .isolated openState).lif.field.state = .isolated ∧ openState.lif.field.state ≠ .isolated) := by
  decide +kernel

theorem test_witness_Readback :
    RecordsMatchPlan openState ∧
    (openState.dps[0]? = some liveDp ∧ openState.sects[1]? = some clearSect ∧ openState.sectTable[1]? = some islandEntry ∧
      openState.demands[0]? = some idleDemand ∧ openState.approachTable[0]? = some smallCtx.entry ∧
      openState.groupPresent 0 = true ∧ openState.groupPresent 1 = false ∧ openState.machinePresent 1 = true ∧
      openState.machinePresent 3 = false ∧ openState.faults.get 0 = none ∧ (oneRecord sentRecord).get 0 = some sentRecord) := by
  unfold RecordsMatchPlan
  decide +kernel

theorem test_read_of_a_section_names_its_entry :
    openState.readback 2 1 = some [.sectState .clear, .number 0, .sectCause .start, .time 0, .restore .none, .number 0, .number 0,
      .number 0, .flag false, .flag false, .number 15, .number 0, .sectKind .island] ∧
    openState.readback 6 3 = none ∧ openState.readback 13 0 = none := by decide +kernel

/-! ### One step -/

theorem test_step_takes_the_front : step { openState with pending := [.reportsStop 1] } = exec (.reportsStop 1) openState := rfl
theorem test_reports_stop : (run (.reportsStop 1) openState).faults.process = .stopped := by decide +kernel
theorem test_remote_close_under_auto : (run (.remoteClose 1) openState).crossing = openState.crossing := by decide +kernel
theorem test_remote_close_under_remote :
    (run (.remoteClose 1) (ownedBy .remote openState)).crossing.state = .amber := by decide +kernel
theorem test_remote_request_wins : (run (.remoteRequest 1) openState).authority.owner = .remote := by decide +kernel
theorem test_key_alone_does_not_win : (run (.keyEdge true) openState).authority.owner = .auto := by decide +kernel
theorem test_amber_ends : (run .stateTimerDeadline (timed .amber 3000)).crossing.state = .redLead := by decide +kernel
theorem test_red_lead_ends : (run .stateTimerDeadline (timed .redLead 3000)).crossing.state = .lowerEntry ∧
    (run .stateTimerDeadline (timed .redLead 3000)).barrier.machines[(0 : Fin 4)].state = .lowering ∧
    (run .stateTimerDeadline (timed .redLead 3000)).barrier.machines[(1 : Fin 4)].state = .upProved := by decide +kernel
theorem test_noise_leaves_the_last_pulse :
    ((run (.headChannelEdge 3 .a false 999) (pulsing 1)).heads[(3 : Fin 8)].channel .a).last = none := by decide +kernel
theorem test_two_changes_make_one_count :
    (run (.headChannelEdge 3 .a false 0) { pairing with pending := [.restartedFlagClears] }).heads[(3 : Fin 8)].seq =
      pairing.heads[(3 : Fin 8)].seq := by decide +kernel
theorem test_readback_of_a_bank_shows_both_states :
    (writing.bankFields .a).take 3 = [.bankState .active, .bankState .loading, .bankState .active] := by decide +kernel
theorem test_axle_counts_up : (run (.headChannelEdge 3 .a false 0) pairing).heads[(3 : Fin 8)].inc = 1 := by decide +kernel
theorem test_silence_disturbs : (run (.dpSilenceDeadline 0) (atTime 2000 openState)).sects.map (·.state) =
    [.disturbed, .clear] := by decide +kernel
theorem test_silence_closes_the_road :
    (run (.dpSilenceDeadline 0) (atTime 2000 openState)).crossing.state = .amber := by decide +kernel
theorem test_start_time_closes_the_road :
    (run (.startTimeTimer 0) (atTime 40000 predicted)).crossing.state = .amber := by decide +kernel
theorem test_good_sample_proves :
    ((run (.lampSamplePoint (Vector.replicate 12 200)) driven).lights.groups[(0 : Fin 4)].redA).state = .proven := by
  decide +kernel
theorem test_boom_lost_fails :
    (run (.machineDetectorChange 0 true false false) openState).barrier.machines[(0 : Fin 4)].cause = .boomLost := by
  decide +kernel
theorem test_ack_leaves_the_window :
    (run (.ackReport 1 0 0) (withTable (oneRecord sentRecord) openState)).faults.window = [] := by decide +kernel
theorem test_latched_record_released :
    ((run (.drainDeadline 0) (withTable (oneRecord latchedRecord) (atTime 10000 openState))).faults.get 0).map (·.change) =
      some 1 := by decide +kernel
theorem test_telegram_carries_its_command :
    (run (.telegramReceived .box (received { reportsStartTelegram with body := [3, 9] }) 0) bothActive).faults.process =
      .stopped := by decide +kernel

end Sys2Proof.Tests
end

namespace Sys2Proof.Machine

open Sys2Proof

/-! ### Deadlines and lists of times (R1, R34, R35, R69) -/

theorem reached_iff (d now : Time) : reached d now = true ↔ (d - now).toInt ≤ 0 := by simp [reached, later, since]

theorem due_iff (d : Option Time) (now : Time) : due d now = true ↔ DeadlineReached d now := by
  cases d <;> simp [due, DeadlineReached]

/-- Of pruned times none is left exactly when all have run out. -/
theorem isEmpty_pruned (now : Time) (len : Nat) (l : List Time) :
    (pruned now len l).isEmpty = true ↔ ∀ x ∈ l, reached (x + BitVec.ofNat 32 len) now = true := by
  simp [pruned, after]

theorem pruned_pruned (now : Time) (len : Nat) (l : List Time) : pruned now len (pruned now len l) = pruned now len l := by
  simp [pruned]

/-! ### One millisecond, record by record -/

@[simp] theorem advance_port (s : State) (p : Port) : s.advance.port p = (s.port p).prune s.advance.clock := by
  cases p <;> rfl

@[simp] theorem advance_heads (s : State) (h : Fin 8) : s.advance.heads[h] =
    { s.heads[h] with oneChannel := pruned s.advance.clock 60000 s.heads[h].oneChannel } := by simp [State.advance]

theorem get_faultTick (t : FaultTable) (n : Nat) : t.tick.get n = (t.get n).map FaultRec.older := by
  unfold FaultTable.get FaultTable.tick
  split
  · simp
  · split <;> rfl

/-! ### The events that wait -/

/-- The test of each time event, as the tick makes it. -/
def State.eventDue (s : State) : Instr → Bool
  | .portActivityTimeout p => (s.port p).silentFor s.clock
  | .checkingComplete p => (s.port p).checked s.clock
  | .errorTimeExpiry p => (s.port p).errorsOver s.clock
  | .loopTimeExpiry p => (s.port p).loopsOver s.clock
  | .transmitEnd p => (s.port p).sendDue s.clock
  | .planBlockWriteComplete => s.writeDue
  | .dpSilenceDeadline i => (s.dps[i]?).any (DpRec.silenceDue s.clock)
  | .headStuck h c => s.stuckDue h c
  | .oneChannelExpiry h => s.oneChannelDue h
  | .headHeartbeat h => s.heartbeatDue h
  | .restartedFlagClears => s.restartedDue
  | .startTimeTimer n => (s.demands[n]?).any (DemandRec.startDue s.clock)
  | .standingDeadline n => (s.demands[n]?).any (DemandRec.standingDue s.clock)
  | .stateTimerDeadline => s.stateTimerDue
  | .exitTimerDeadline => s.exitTimerDue
  | .lampTestEnd => s.lampTestDue
  | .holdDeadline => s.holdDue
  | .leaveDeadline i => s.barrier.machines[i].leaveDue s.clock
  | .travelDeadline i => s.barrier.machines[i].travelDue s.clock
  | .halfPeriodEnd => s.lights.halfDue s.clock
  | .drainDeadline n => s.drainDue n
  | .ackDeadline n => s.ackDue n
  | .statusPeriod => s.statusDue
  | _ => false

theorem mem_portsDue (s : State) (e : Instr) : e ∈ s.portDue .box ∨ e ∈ s.portDue .field ↔ ∃ p, e ∈ s.portDue p :=
  ⟨fun h => h.elim (⟨_, ·⟩) (⟨_, ·⟩), fun ⟨p, h⟩ => by cases p; exacts [.inl h, .inr h]⟩

theorem mem_headDue (s : State) (h : Fin 8) (e : Instr) : e ∈ s.headDue h ↔
    (∃ c, s.stuckDue h c = true ∧ e = .headStuck h c) ∨ (s.oneChannelDue h = true ∧ e = .oneChannelExpiry h) ∨
      (s.heartbeatDue h = true ∧ e = .headHeartbeat h) := by
  have channels (P : Channel → Prop) : (∃ c, P c) ↔ P .a ∨ P .b :=
    ⟨fun ⟨c, h⟩ => by cases c; exacts [.inl h, .inr h], fun h => h.elim (⟨_, ·⟩) (⟨_, ·⟩)⟩
  simp only [State.headDue, List.mem_append, mem_whenDue, channels, or_assoc]

/-- The queue of due events holds exactly the events whose test holds. -/
theorem mem_dueEvents (s : State) (e : Instr) : e ∈ s.dueEvents ↔ s.eventDue e = true := by
  simp only [State.dueEvents, List.mem_append, mem_portsDue, List.mem_flatMap, mem_headDue, mem_whenDue]
  cases e <;> simp [State.eventDue, State.portDue, State.machineDue, State.slotDue, demandDue, mem_whenDue, mem_indexed,
    Option.any_eq_true]

/-! ### What each event waits for, by its rule -/

theorem silentFor_iff (now : Time) (r : PortRec) : r.silentFor now = true ↔
    (r.state = .checking ∨ r.state = .active) ∧ reached (r.lastActivity + 200) now = true := by
  simp [PortRec.silentFor, after]

theorem checked_iff (now : Time) (r : PortRec) : r.checked now = true ↔
    r.state = .checking ∧ reached (r.checkStart + 2000) now = true := by
  simp [PortRec.checked, after]

theorem errorsOver_prune_iff (now : Time) (r : PortRec) : (r.prune now).errorsOver now = true ↔
    r.lineErrors = true ∧ ∀ x ∈ r.errorTimes, reached (x + 10000) now = true := by
  rw [PortRec.errorsOver, Bool.and_eq_true, PortRec.prune, pruned_pruned, isEmpty_pruned]
  rfl

theorem loopsOver_prune_iff (now : Time) (r : PortRec) : (r.prune now).loopsOver now = true ↔
    r.lineLoop = true ∧ ∀ x ∈ r.loopTimes, reached (x + 10000) now = true := by
  rw [PortRec.loopsOver, Bool.and_eq_true, PortRec.prune, pruned_pruned, isEmpty_pruned]
  rfl

theorem sendDue_iff (now : Time) (r : PortRec) : r.sendDue now = true ↔
    ∃ x, r.sending = some x ∧ reached x.ends.ms now = true := by
  unfold PortRec.sendDue
  cases r.sending <;> simp

theorem writeDue_iff (s : State) : s.writeDue = true ↔
    ∃ w, s.store.write = some w ∧ reached (w.began + 40) s.clock = true := by
  unfold State.writeDue
  cases s.store.write <;> simp [after]

theorem silenceDue_iff (now : Time) (r : DpRec) :
    r.silenceDue now = true ↔ r.state ≠ .silent ∧ DeadlineReached r.deadline now := by
  simp [DpRec.silenceDue, due_iff]

theorem named_iff (s : State) (h : Fin 8) : s.named h = true ↔ HeadNamed s h := by
  rw [State.named, Option.isSome_iff_ne_none, dpOfHead, ne_eq, indexWhere_eq_none]
  simp [HeadNamed]

/-- On an empty queue no ending edge waits, so nothing but the active time decides (R67; log 48). -/
theorem stuckDue_advance_iff {s : State} (idle : s.pending = []) (h : Fin 8) (c : Channel) :
    s.advance.stuckDue h c = true ↔ EventDue s s.advance.clock (.headStuck h c) := by
  have noEdge (t : Moment) : s.advance.endsInTime h c t = false := by
    simp [State.endsInTime, State.sameMoment, State.advance, idle]
  have channel : s.advance.heads[h].channel c = s.heads[h].channel c := by rw [advance_heads]; cases c <;> rfl
  have moment : s.advance.moment = ⟨s.advance.clock, 0⟩ := rfl
  have failed : s.advance.heads[h].failed = s.heads[h].failed := by rw [advance_heads]
  unfold State.stuckDue
  rw [channel, failed, Bool.and_eq_true, Bool.and_eq_true, named_iff, and_assoc]
  refine and_congr Iff.rfl (and_congr (by simp) ?_)
  cases (s.heads[h].channel c).since with
  | none => simp
  | some m => simp [noEdge, moment]

/-- A head reads OK when it is not FAILED and its one-channel times have all run out (R69). -/
theorem healthAt_eq_ok_iff (now : Time) (r : HeadRec) : r.healthAt now = .ok ↔
    r.failed = false ∧ ∀ x ∈ r.oneChannel, reached (x + 60000) now = true := by
  refine Iff.trans ?_ (and_congr Iff.rfl (isEmpty_pruned now 60000 r.oneChannel))
  unfold HeadRec.healthAt
  cases r.failed <;> simp

/-- The health read from a pruned list of times is the health read from the whole (R69). -/
theorem healthAt_prune (now : Time) (r : HeadRec) :
    HeadRec.healthAt now { r with oneChannel := pruned now 60000 r.oneChannel } = r.healthAt now := by
  unfold HeadRec.healthAt
  rw [pruned_pruned]

theorem oneChannelDue_advance_iff (s : State) (h : Fin 8) :
    s.advance.oneChannelDue h = true ↔ EventDue s s.advance.clock (.oneChannelExpiry h) := by
  unfold State.oneChannelDue
  rw [advance_heads, healthAt_prune, Bool.and_eq_true, Bool.and_eq_true, decide_eq_true_eq, decide_eq_true_eq, named_iff,
    healthAt_eq_ok_iff]
  exact ⟨fun ⟨⟨n, d⟩, f, o⟩ => ⟨n, f, d, o⟩, fun ⟨n, f, d, o⟩ => ⟨⟨n, d⟩, f, o⟩⟩

theorem heartbeatDue_advance_iff (s : State) (h : Fin 8) :
    s.advance.heartbeatDue h = true ↔ EventDue s s.advance.clock (.headHeartbeat h) := by
  unfold State.heartbeatDue
  rw [advance_heads, Bool.and_eq_true, Bool.and_eq_true, Bool.not_eq_true', named_iff, and_assoc]
  rfl

theorem restartedDue_advance_iff (s : State) :
    s.advance.restartedDue = true ↔ EventDue s s.advance.clock .restartedFlagClears := by
  unfold State.restartedDue
  simp only [advance_heads, Bool.and_eq_true, List.any_eq_true, List.mem_finRange, true_and]
  rfl

theorem startDue_iff (now : Time) (d : DemandRec) :
    d.startDue now = true ↔ d.state = .predicted ∧ DeadlineReached d.ts now := by
  simp [DemandRec.startDue, due_iff]

theorem standingDue_iff (now : Time) (d : DemandRec) :
    d.standingDue now = true ↔ d.state = .warning ∧ d.forced = false ∧ DeadlineReached d.standing now := by
  simp [DemandRec.standingDue, due_iff, and_assoc]

theorem isMoving_iff (r : MachineRec) : r.isMoving = true ↔ r.state = .lowering ∨ r.state = .raising := by
  simp [MachineRec.isMoving]

theorem leaveDue_iff (now : Time) (r : MachineRec) : r.leaveDue now = true ↔
    (r.state = .lowering ∨ r.state = .raising) ∧ r.leaveMet = false ∧ DeadlineReached r.leaveBy now := by
  simp [MachineRec.leaveDue, isMoving_iff, due_iff, and_assoc]

theorem travelDue_iff (now : Time) (r : MachineRec) : r.travelDue now = true ↔
    (r.state = .lowering ∨ r.state = .raising) ∧ DeadlineReached r.travelBy now := by
  simp [MachineRec.travelDue, isMoving_iff, due_iff]

theorem lampTestDue_iff (s : State) :
    s.lampTestDue = true ↔ s.authority.step = .lampTest ∧ DeadlineReached s.authority.stepEnd s.clock := by
  simp [State.lampTestDue, due_iff]

theorem exitTimerDue_iff (s : State) :
    s.exitTimerDue = true ↔ s.crossing.exitRun = false ∧ DeadlineReached s.crossing.exitTimer s.clock := by
  simp [State.exitTimerDue, due_iff, and_comm]

theorem holdDue_iff (s : State) :
    s.holdDue = true ↔ s.barrier.zone.waiting = true ∧ DeadlineReached s.barrier.zone.holdBy s.clock := by
  simp [State.holdDue, due_iff]

/-- The deadlines of a fault record do not move while it ages (R172, R180). -/
theorem drainDue_advance_iff (s : State) (n : Fin 64) :
    s.advance.drainDue n = true ↔ EventDue s s.advance.clock (.drainDeadline n) := by
  have get : s.advance.faults.get n.val = (s.faults.get n.val).map FaultRec.older := get_faultTick _ _
  unfold State.drainDue EventDue
  rw [get]
  cases h : s.faults.get n.val <;> simp [h, FaultRec.older, due_iff]

theorem ackDue_advance_iff (s : State) (n : Fin 64) :
    s.advance.ackDue n = true ↔ EventDue s s.advance.clock (.ackDeadline n) := by
  have get : s.advance.faults.get n.val = (s.faults.get n.val).map FaultRec.older := get_faultTick _ _
  unfold State.ackDue EventDue
  rw [get]
  cases h : s.faults.get n.val <;> simp [h, FaultRec.older, due_iff]

theorem statusDue_advance_iff (s : State) :
    s.advance.statusDue = true ↔ EventDue s s.advance.clock .statusPeriod := by
  have state : s.advance.lif.box.state = s.lif.box.state := rfl
  have builder : s.advance.builder = s.builder := rfl
  unfold State.statusDue EventDue
  rw [state, builder]
  cases s.builder.lastAt <;> simp [after]

/-- What an indexed record times, the record being there. -/
theorem option_any_iff {α : Type} {o : Option α} {test : α → Bool} {P : α → Prop} (h : ∀ x, test x = true ↔ P x) :
    o.any test = true ↔ ∃ x, o = some x ∧ P x := by simp [Option.any_eq_true, h]

/-- After one millisecond on an empty queue, the tests of the tick say of each event what its rule says. -/
theorem eventDue_advance_iff {s : State} (idle : s.pending = []) (e : Instr) :
    s.advance.eventDue e = true ↔ EventDue s s.advance.clock e := by
  cases e
  case portActivityTimeout p =>
    show (s.advance.port p).silentFor _ = true ↔ _
    rw [advance_port]; exact silentFor_iff _ _
  case checkingComplete p =>
    show (s.advance.port p).checked _ = true ↔ _
    rw [advance_port]; exact checked_iff _ _
  case errorTimeExpiry p =>
    show (s.advance.port p).errorsOver _ = true ↔ _
    rw [advance_port]; exact errorsOver_prune_iff _ _
  case loopTimeExpiry p =>
    show (s.advance.port p).loopsOver _ = true ↔ _
    rw [advance_port]; exact loopsOver_prune_iff _ _
  case transmitEnd p =>
    show (s.advance.port p).sendDue _ = true ↔ _
    rw [advance_port]; exact sendDue_iff _ _
  case planBlockWriteComplete => exact writeDue_iff s.advance
  case dpSilenceDeadline i => exact option_any_iff (silenceDue_iff _)
  case headStuck h c => exact stuckDue_advance_iff idle h c
  case oneChannelExpiry h => exact oneChannelDue_advance_iff s h
  case headHeartbeat h => exact heartbeatDue_advance_iff s h
  case restartedFlagClears => exact restartedDue_advance_iff s
  case startTimeTimer n => exact option_any_iff (startDue_iff _)
  case standingDeadline n => exact option_any_iff (standingDue_iff _)
  case stateTimerDeadline => exact due_iff _ _
  case exitTimerDeadline => exact exitTimerDue_iff s.advance
  case lampTestEnd => exact lampTestDue_iff s.advance
  case holdDeadline => exact holdDue_iff s.advance
  case leaveDeadline i => exact leaveDue_iff _ _
  case travelDeadline i => exact travelDue_iff _ _
  case halfPeriodEnd => exact Iff.rfl
  case drainDeadline n => exact drainDue_advance_iff s n
  case ackDeadline n => exact ackDue_advance_iff s n
  case statusPeriod => exact statusDue_advance_iff s
  -- every other command comes from outside
  all_goals exact iff_of_false Bool.false_ne_true id

/-! ### The tick (R1; logs 1, 4) -/

theorem insertAt_perm {α : Type} (x : α) (n : Nat) (l : List α) : (insertAt x n l).Perm (x :: l) := by
  induction l generalizing n with
  | nil => cases n <;> exact .refl _
  | cons y l ih =>
    cases n with
    | zero => exact .refl _
    | succ n => exact ((ih n).cons y).trans (.swap x y l)

/-- Whatever the free choices are, a free order loses no event and adds none. -/
theorem freeOrder_perm (draw : Nat) (l : List Instr) : (freeOrder draw l).Perm l := by
  induction l using freeOrder.induct draw with
  | case1 => exact .refl _
  | case2 i => exact .refl _
  | case3 i j l ih => exact (insertAt_perm i _ _).trans (ih.cons i)

/-- A tick is the advance, its due events in some order, and at most one draw. -/
theorem tick_eq (s : State) : ∃ l d, s.tick = { s.advance with pending := l, draws := d } ∧ l.Perm s.advance.dueEvents ∧
    s.draws ≤ d := by
  unfold State.tick
  dsimp only
  split
  · exact ⟨_, _, rfl, .refl _, Nat.le_refl _⟩
  · exact ⟨_, _, rfl, freeOrder_perm _ _, Nat.le_succ _⟩

theorem step_of_idle {s : State} (idle : s.pending = []) : step s = .next s.tick := by rw [step, idle]

/-- Settles O2: the tick is the advance with its due events, whose tests are the rules'. -/
theorem idleStepAdvancesTheClock : Obligations.IdleStepAdvancesTheClock := by
  refine ⟨reached_iff, fun s idle => ?_⟩
  obtain ⟨l, d, tick, perm, draws⟩ := tick_eq s
  refine ⟨s.tick, step_of_idle idle, ?_⟩
  rw [tick]
  have waits (e : Instr) : e ∈ l ↔ EventDue s s.advance.clock e := by
    rw [perm.mem_iff, mem_dueEvents, eventDue_advance_iff idle]
  exact ⟨rfl, rfl, perm, waits, draws, rfl, rfl, advance_port s, advance_heads s, rfl, get_faultTick s.faults⟩

end Sys2Proof.Machine

namespace Sys2Proof.Machine

open Sys2Proof

/-! ### Commands and the queue (O3) -/

/-- A command whose operation leaves the queue, the clock and the draws ends its step with them. -/
theorem reaches_queue_of_completes {c : Instr} {op : State → State} {s : State} (arm : exec c s = completes op s)
    (h : QueueOnly s (op s)) : Reaches c s (QueueOnly s) := ⟨_, arm, h.trans (settle_queue _)⟩

theorem reaches_queue_of_box {c : Instr} {tag : Byte} {b : BoxCommand} {s : State}
    (arm : exec c s = completes (boxCommand (runCommand tag b)) s) : Reaches c s (QueueOnly s) :=
  reaches_queue_of_completes arm ((hear_device s).queue.trans (runCommand_queue tag b s.hear))

/-- The operations of the Line Interface, of control and of the sections, as the frame lemmas speak of them. -/
theorem reaches_queue_of_device {c : Instr} {op : State → State} {s : State} (arm : exec c s = completes op s)
    (h : DeviceOnly s (op s)) : Reaches c s (QueueOnly s) := reaches_queue_of_completes arm h.queue

/-- Every command but START leaves the queue, the clock and the draws. -/
theorem exec_keeps_queue {c : Instr} (hc : c ≠ .start) (s : State) : Reaches c s (QueueOnly s) := by
  cases c with
  | start => exact absurd rfl hc
  -- the signal box
  | ackReport tag x y => exact reaches_queue_of_box (b := .ackReport x y) rfl
  | reportsStart tag => exact reaches_queue_of_box (b := .reportsStart) rfl
  | reportsStop tag => exact reaches_queue_of_box (b := .reportsStop) rfl
  | classEnable tag x y => exact reaches_queue_of_box (b := .classEnable x y) rfl
  | restoreSection tag x y => exact reaches_queue_of_box (b := .restoreSection x y) rfl
  | resetEquipmentLamp tag x => exact reaches_queue_of_box (b := .resetLamp x) rfl
  | resetEquipmentMachine tag x => exact reaches_queue_of_box (b := .resetMachine x) rfl
  | resetEquipmentHead tag x => exact reaches_queue_of_box (b := .resetHead x) rfl
  | remoteRequest tag => exact reaches_queue_of_box (b := .remoteRequest) rfl
  | remoteRelease tag => exact reaches_queue_of_box (b := .remoteRelease) rfl
  | remoteClose tag => exact reaches_queue_of_box (b := .remoteClose) rfl
  | remoteOpen tag => exact reaches_queue_of_box (b := .remoteOpen) rfl
  | localRelease tag => exact reaches_queue_of_box (b := .localRelease) rfl
  | localWithdraw tag => exact reaches_queue_of_box (b := .localWithdraw) rfl
  | testRequest tag => exact reaches_queue_of_box (b := .testRequest) rfl
  | testRelease tag => exact reaches_queue_of_box (b := .testRelease) rfl
  | testStep tag x y => exact reaches_queue_of_box (b := .testStep x y) rfl
  | planBlock tag l => exact reaches_queue_of_box (b := .planBlock l) rfl
  | planCheck tag => exact reaches_queue_of_box (b := .planCheck) rfl
  | planActivate tag i v => exact reaches_queue_of_box (b := .planActivate i v) rfl
  | planCancel tag => exact reaches_queue_of_box (b := .planCancel) rfl
  | portIsolate tag => exact reaches_queue_of_box (b := .portIsolate) rfl
  | portRestore tag => exact reaches_queue_of_box (b := .portRestore) rfl
  | clearAcked tag => exact reaches_queue_of_box (b := .clearAcked) rfl
  | read tag x y => exact reaches_queue_of_box (b := .read x y) rfl
  -- the line and the Plan Store
  | telegramReceived p l us => exact reaches_queue_of_completes rfl (opTelegram_queue p l us s)
  | planBlockWriteComplete => exact reaches_queue_of_completes rfl (opWriteComplete_queue s)
  | fillReceived p => exact reaches_queue_of_device rfl (opFill_line p s).device
  | complementBytes p => exact reaches_queue_of_device rfl (opComplement_line p s).device
  | portActivityTimeout p => exact reaches_queue_of_device rfl (opPortTimeout_line p s).device
  | checkingComplete p => exact reaches_queue_of_device rfl (opCheckingComplete_line p s).device
  | errorTimeExpiry p => exact reaches_queue_of_device rfl (opErrorExpiry_line p s).device
  | loopTimeExpiry p => exact reaches_queue_of_device rfl (opLoopExpiry_line p s).device
  | transmitEnd p => exact reaches_queue_of_device rfl (opTransmitEnd_line p s).device
  | statusPeriod => exact reaches_queue_of_device rfl (opStatusPeriod_line s).device
  -- detection
  | dpSilenceDeadline i => exact reaches_queue_of_device rfl (opSilence_detect i s).device
  | headChannelEdge h c on us => exact reaches_queue_of_completes rfl (opHeadEdge_covered covers_queue h c on us s)
  | headStuck h c => exact reaches_queue_of_completes rfl (opHeadStuck_covered covers_queue h c s)
  | oneChannelExpiry h => exact reaches_queue_of_completes rfl (opOneChannelExpiry_covered covers_queue h s)
  | restartedFlagClears => exact reaches_queue_of_completes rfl (opRestartedClears_covered covers_queue s)
  | headHeartbeat h => exact reaches_queue_of_completes rfl (opHeartbeat_covered covers_queue h s)
  -- demands, crossing, authority
  | startTimeTimer n => exact reaches_queue_of_device rfl (opStartTimeTimer_only n s).device
  | standingDeadline n => exact reaches_queue_of_device rfl (opStandingDeadline_only n s).device
  | stateTimerDeadline => exact reaches_queue_of_device rfl (opStateTimer_only s).device
  | exitTimerDeadline => exact reaches_queue_of_device rfl (opExitTimer_only s).device
  | lampTestEnd => exact reaches_queue_of_device rfl (opLampTestEnd_only s).device
  | keyEdge b => exact reaches_queue_of_device rfl (opKeyEdge_only b s).device
  | panelCloseEdge b => exact reaches_queue_of_device rfl (opPanelClose_device b s)
  | panelOpenEdge b => exact reaches_queue_of_device rfl (opPanelOpen_device b s)
  -- lights, barrier, supply
  | zoneEdge b => exact reaches_queue_of_device rfl (opZoneEdge_only b s).device
  | holdDeadline => exact reaches_queue_of_device rfl (opHoldDeadline_only s).device
  | machineDetectorChange i u d b => exact reaches_queue_of_device rfl (opDetectorChange_only i u d b s).device
  | leaveDeadline i => exact reaches_queue_of_device rfl (opLeaveDeadline_only i s).device
  | travelDeadline i => exact reaches_queue_of_device rfl (opTravelDeadline_only i s).device
  | halfPeriodEnd => exact reaches_queue_of_device rfl (opHalfPeriodEnd_only s).device
  | lampSamplePoint c => exact reaches_queue_of_device rfl (opSamplePoint_only c s).device
  | battLowEdge b => exact reaches_queue_of_device rfl (opBattLow_device b s)
  | mainsOffEdge b => exact reaches_queue_of_device rfl (opMainsOff_device b s)
  -- fault records
  | drainDeadline n => exact reaches_queue_of_device rfl (opDrain_device n s)
  | ackDeadline n => exact reaches_queue_of_device rfl (opAckDeadline_device n s)

/-! ### START and the queue (R4; log 33) -/

theorem stopWrite_pending (s : State) : s.stopWrite.pending = s.pending := by
  unfold State.stopWrite
  split <;> rfl

theorem lowerAll_only (s : State) : ControlOnly s s.lowerAll :=
  ControlOnly.foldl _ (fun t i => sendMachine_only t i .lower) _ s

theorem startOutputs_only (s : State) : ControlOnly s s.startOutputs := by
  have views := crossing_only s { s.crossing with demandView := s.demandsNow, islandView := s.islandsNow }
  unfold State.startOutputs
  generalize { s with crossing := { s.crossing with demandView := s.demandsNow, islandView := s.islandsNow } } = u at views ⊢
  dsimp only
  refine views.trans ?_
  have audible (t : State) (on : Bool) : ControlOnly t (if (t.audibleCommand on).crossing.state = .noPlan then
      (t.audibleCommand on).lowerAll else t.audibleCommand on) := by
    split
    · exact (audibleCommand_only t on).trans (lowerAll_only _)
    · exact audibleCommand_only t on
  cases u.crossing.state.light with
  | none => exact audible u _
  | some l => exact (lightCommand_only u l).trans (audible _ _)

/-- After the records have been set, START leaves the queue, the clock and the draws. -/
theorem startPart_queue (s : State) : QueueOnly s.stopWrite.cleared (startPart s) :=
  ((report_only _ (startActs s.stopWrite.cleared)).trans (startOutputs_only _)).device.queue.trans
    (emitAll_covered covers_queue _)

theorem exec_start_queue (s : State) : Reaches .start s fun t => t.pending = s.pending ∧ t.clock = 0 := by
  obtain ⟨pending, clock, -⟩ := (startPart_queue s).trans (settle_queue _)
  exact ⟨_, rfl, pending.trans (stopWrite_pending s), clock⟩

/-- Settles O3: START by its own lemma, every other command by what its operation leaves. -/
theorem commandsAnswerNextAndKeepTheQueue : Obligations.CommandsAnswerNextAndKeepTheQueue := by
  intro c s
  by_cases hc : c = .start
  · subst hc
    obtain ⟨t, arm, pending, clock⟩ := exec_start_queue s
    exact ⟨t, arm, pending, fun other => absurd rfl other, fun _ => clock⟩
  · obtain ⟨t, arm, pending, clock, draws⟩ := exec_keeps_queue hc s
    exact ⟨t, arm, pending, fun _ => ⟨clock, draws⟩, fun start => absurd start hc⟩

end Sys2Proof.Machine

namespace Sys2Proof.Machine

open Sys2Proof

/-! ### The record of a port (R27) -/

theorem onPort_onPort (s : State) (p : Port) (f g : PortRec → PortRec) :
    (s.onPort p f).onPort p g = s.onPort p fun r => g (f r) := by cases p <;> rfl

/-- A change of a port record is the change of the record as it stands. -/
theorem onPort_congr {s : State} {p : Port} {f g : PortRec → PortRec} (h : f (s.port p) = g (s.port p)) :
    s.onPort p f = s.onPort p g := by
  cases p
  · show { s with lif := { s.lif with box := f (s.port .box) } } = { s with lif := { s.lif with box := g (s.port .box) } }
    rw [h]
  · show { s with lif := { s.lif with field := f (s.port .field) } } = { s with lif := { s.lif with field := g (s.port .field) } }
    rw [h]

/-- Line activity takes a DOWN port to CHECKING and is the time of the last activity of any (R28, R29). -/
theorem activity_of_down {s : State} {p : Port} (h : (s.port p).state = .down) : s.activity p =
    s.onPort p fun r => { r with lastActivity := s.clock, state := .checking, checkStart := s.clock } :=
  onPort_congr (if_pos h)

theorem activity_of_up {s : State} {p : Port} (h : (s.port p).state ≠ .down) : s.activity p =
    s.onPort p fun r => { r with lastActivity := s.clock } := onPort_congr (if_neg h)

/-! ### Fill and complement bytes (R28 to R31) -/

theorem opFill_of_isolated {p : Port} {s : State} (h : (s.port p).state = .isolated) : opFill p s = s := if_pos h

theorem opFill_of_live {p : Port} {s : State} (h : (s.port p).state ≠ .isolated) : opFill p s = s.activity p := if_neg h

theorem invert_eq (s : State) (p : Port) : s.invert p =
    if (s.port p).inverted = true then (s.onPort p fun r => { r with inverted := false }).clear .linePolarity (portSource p)
    else (s.onPort p fun r => { r with inverted := true }).raise .linePolarity (portSource p) .advisory := by
  have flip {b : Bool} (h : (s.port p).inverted = b) :
      (s.onPort p fun r => { r with inverted := !r.inverted }) = s.onPort p fun r => { r with inverted := !b } :=
    onPort_congr (by rw [h])
  unfold State.invert
  cases h : (s.port p).inverted <;> simp [flip h]

theorem opComplement_of_down {p : Port} {s : State} (h : (s.port p).state = .down) : opComplement p s = s.invert p := by
  rw [opComplement, h]

theorem opComplement_of_checking {p : Port} {s : State} (h : (s.port p).state = .checking) :
    opComplement p s = (s.invert p).onPort p fun r => { r with checkStart := s.clock } := by rw [opComplement, h]

theorem opComplement_of_other {p : Port} {s : State} (h : (s.port p).state = .active ∨ (s.port p).state = .isolated) :
    opComplement p s = s := by
  rcases h with h | h <;> rw [opComplement, h]

/-- Settles O24: each byte event by the state of its port, and what the pairs carry by the port record. -/
theorem fillAndComplementBytesMoveThePort : Obligations.FillAndComplementBytesMoveThePort := by
  intro p s
  have fill : exec (.fillReceived p) s = .next (opFill p s).settle := rfl
  have complement : exec (.complementBytes p) s = .next (opComplement p s).settle := rfl
  refine ⟨fun down => ?_, fun up => ?_, fun iso => ?_, fun other => ?_, fun u hu => ⟨fun down => ?_, fun checking => ?_⟩,
    output_of_isolated, output_of_idle, fun x => output_of_sending, fun sense => ?_, fun sense => ?_⟩
  · rw [fill, opFill_of_live (by simp [down]), activity_of_down down]
  · have live : (s.port p).state ≠ .isolated ∧ (s.port p).state ≠ .down := by rcases up with h | h <;> simp [h]
    rw [fill, opFill_of_live live.1, activity_of_up live.2]
  · rw [fill, opFill_of_isolated iso]
  · rw [complement, opComplement_of_other other]
  · rw [complement, opComplement_of_down down, invert_eq, hu]
  · rw [complement, opComplement_of_checking checking, invert_eq, hu]
  · simp [PortRec.fillSeen, PortRec.complementSeen, sense, fillByte, complementByte]
  · simp [PortRec.fillSeen, PortRec.complementSeen, sense, fillByte, complementByte]

/-! ### The end of CHECKING (R29) -/

/-- The part's work at the end of CHECKING: the port ACTIVE, PORT_DOWN cleared, and a STATUS built for the box port. -/
theorem opCheckingComplete_of_checked {p : Port} {s : State} (h : (s.port p).checked s.clock = true) :
    opCheckingComplete p s =
      let u := (s.onPort p fun r => { r with state := .active }).clear .portDown (portSource p)
      if p = .box then u.buildStatus else u := by
  cases p <;> simp [opCheckingComplete, h]

/-- Settles O26, by the two sides of the test that the event makes. -/
theorem checkingEndsInActive : Obligations.CheckingEndsInActive := by
  intro p s
  refine ⟨fun early => ?_, fun checking ended idle => ?_⟩
  · show Host.Outcome.next (opCheckingComplete p s).settle = _
    simp [opCheckingComplete, early]
  · have checked : (s.port p).checked s.clock = true := by simp [PortRec.checked, checking, ended]
    have arm : exec (.checkingComplete p) s = .next (opCheckingComplete p s).finish :=
      completes_of_device (opCheckingComplete_line p s).device idle
    rw [arm, opCheckingComplete_of_checked checked]

/-! ### The time lists and the transmission (R34, R35, R43, R44) -/

theorem pruned_eq_filter (now : Time) (len : Nat) (l : List Time) :
    pruned now len l = l.filter fun t => later (after t len) now := by simp [pruned, reached]

theorem opErrorExpiry_eq (p : Port) (s : State) : opErrorExpiry p s =
    let times := (s.port p).errorTimes.filter fun t => later (after t 10000) s.clock
    if (s.port p).lineErrors = true ∧ times = [] then
      (s.onPort p fun r => { r with errorTimes := times, lineErrors := false }).clear .lineErrors (portSource p)
    else s.onPort p fun r => { r with errorTimes := times } := by
  simp only [opErrorExpiry, PortRec.errorsOver, onPort_onPort, Bool.and_eq_true, List.isEmpty_iff, pruned_eq_filter]
  split
  · exact congrArg (fun u => State.clear u .lineErrors (portSource p)) (onPort_congr rfl)
  · exact onPort_congr rfl

theorem opLoopExpiry_eq (p : Port) (s : State) : opLoopExpiry p s =
    let times := (s.port p).loopTimes.filter fun t => later (after t 10000) s.clock
    if (s.port p).lineLoop = true ∧ times = [] then
      (s.onPort p fun r => { r with loopTimes := times, lineLoop := false }).clear .lineLoop (portSource p)
    else s.onPort p fun r => { r with loopTimes := times } := by
  simp only [opLoopExpiry, PortRec.loopsOver, onPort_onPort, Bool.and_eq_true, List.isEmpty_iff, pruned_eq_filter]
  split
  · exact congrArg (fun u => State.clear u .lineLoop (portSource p)) (onPort_congr rfl)
  · exact onPort_congr rfl

/-- A clock value has been reached at itself (R1). -/
theorem reached_self (t : Time) : reached t t = true := by simp [reached, later, since]

theorem opTransmitEnd_on_time {p : Port} {s : State} {x : Sending} (sending : (s.port p).sending = some x)
    (now : x.ends.ms = s.clock) : opTransmitEnd p s = State.onPort { s with us := max s.us x.ends.us } p fun r =>
      { r with sending := none, counters := { r.counters with transmitted := min 65535 (r.counters.transmitted + 1) } } := by
  simp only [opTransmitEnd, sending, now, reached_self, if_true]
  rfl

theorem opTransmitEnd_early {p : Port} {s : State} {x : Sending} (sending : (s.port p).sending = some x)
    (early : later x.ends.ms s.clock = true) : opTransmitEnd p s = s := by simp [opTransmitEnd, sending, reached, early]

/-- Settles O27, each event by the equation of its operation. -/
theorem lineTimeEventsEndWhatTheyTime : Obligations.LineTimeEventsEndWhatTheyTime := by
  intro p s
  have arm (op : State → State) (u : State) (h : op s = u) : completes op s = .next u.settle := by rw [completes, h]
  exact ⟨arm _ _ (opErrorExpiry_eq p s), arm _ _ (opLoopExpiry_eq p s), fun x sending =>
    ⟨fun now => arm _ _ (opTransmitEnd_on_time sending now), fun early => arm _ _ (opTransmitEnd_early sending early)⟩⟩

end Sys2Proof.Machine

namespace Sys2Proof.Machine

open Sys2Proof

/-! ### Bytes and what they read back as (R47) -/

@[simp] theorem toNat_byteOf (n : Nat) : (byteOf n).toNat = n % 256 := by simp [byteOf]

/-- Two bytes, most significant first, read back as the number. -/
theorem numberOf_bytes2 {n : Nat} (h : n < 65536) : numberOf [byteOf (n / 256), byteOf n] = n := by
  simp only [numberOf, List.foldl_cons, List.foldl_nil, toNat_byteOf]
  omega

/-- The length field of a body that fits one byte. -/
theorem toNat_byteOf_length {l : List Byte} (h : l.length ≤ 72) : (byteOf l.length).toNat = l.length := by
  rw [toNat_byteOf]; omega

/-- What is sent after the start byte: header, body and CRC. -/
theorem tail_frameOf (t : Telegram) : (frameOf t).tail =
    t.dest :: t.src :: t.kind :: t.hops :: t.age :: byteOf t.body.length ::
      (t.body ++ bytes2 (crc16 ([t.dest, t.src, t.kind, t.hops, t.age, byteOf t.body.length] ++ t.body)).toNat) := by
  simp [frameOf]

/-- A telegram whose header and body fit passes check 1 as itself (R33). -/
theorem check_frameOf {t : Telegram} (header : headerFits t.dest t.src t.hops (byteOf t.body.length) = true)
    (length : t.body.length ≤ 72) (body : bodyFits t.kind t.body = true) : Telegram.check (frameOf t).tail = some t := by
  have crc (c : BitVec 16) : numberOf (bytes2 c.toNat) = c.toNat := numberOf_bytes2 c.isLt
  rw [tail_frameOf, Telegram.check]
  simp only [toNat_byteOf_length length, List.take_left', List.drop_left', List.length_append, crc, header, body]
  rw [if_pos (by simp [bytes2])]

theorem healthOf_number (h : Health) : healthOf (byteOf h.number) = some h := by cases h <;> rfl

theorem flagOf_bit (b : Bool) : flagOf (byteOf (bitOf b 1)) = some b := by cases b <;> rfl

/-- A COUNT body whose counters are in range reads back as its fields (R48). -/
theorem countOf_countBytes {c : CountBody} (inc : c.inc ≤ 4095) (dec : c.dec ≤ 4095) : countOf (countBytes c) = some c := by
  simp [countBytes, bytes2, countOf, healthOf_number, flagOf_bit, numberOf_bytes2 (show c.inc < 65536 by omega),
    numberOf_bytes2 (show c.dec < 65536 by omega), inc, dec]

/-! ### Bodies (R48 to R50, R192) -/

/-- A flag byte is the sum of the weights of the flags that are set. -/
theorem byteOf_flags3 (a b c : Bool) : byteOf (bitOf a 1 + bitOf b 2 + bitOf c 4) =
    (if a then 1 else 0) + (if b then 2 else 0) + (if c then 4 else 0) := by
  cases a <;> cases b <;> cases c <;> rfl

theorem byteOf_flags2 (a b : Bool) : byteOf (bitOf a 1 + bitOf b 2) = (if a then 1 else 0) + (if b then 2 else 0) := by
  cases a <;> cases b <;> rfl

theorem byteOf_flag (a : Bool) : byteOf (bitOf a 1) = if a then 1 else 0 := by cases a <;> rfl

/-- The byte of a demand: its state, and 16 when forced; 15 when ABSENT (R49). -/
theorem demandByte_eq (d : Option DemandShown) : demandByte d = match d with
    | none => 15
    | some d => BitVec.ofNat 8 d.state.number + (if d.forced then 16 else 0) := by
  rcases d with _ | ⟨state, forced⟩
  · rfl
  · cases state <;> cases forced <;> rfl

theorem length_replyDataBytes (d : ReplyData) : (replyDataBytes d).length ≤ 70 := List.length_take_le _ _

theorem length_statusBytes {c : StatusContent} (demands : c.demands.length = 8) (groups : c.groups.length = 4)
    (machines : c.machines.length = 4) : (statusBytes c).length = 24 := by
  simp [statusBytes, bytes2, demands, groups, machines]

/-- Inside a list put together from three parts, the middle one stands behind the first. -/
theorem getElem?_of_parts {α : Type} {l pre mid post : List α} {n i : Nat} (parts : l = pre ++ mid ++ post)
    (length : pre.length = n) (inside : i < mid.length) : l[n + i]? = mid[i]? := by
  rw [parts, List.getElem?_append_left (by rw [List.length_append]; omega), ← length, List.getElem?_append_right (by omega),
    Nat.add_sub_cancel_left]

/-- The bytes of a STATUS body of eight demands, four groups and four machines behind its first four, each at its offset
(R49). -/
theorem statusBytes_at {c : StatusContent} (demands : c.demands.length = 8) (groups : c.groups.length = 4)
    (machines : c.machines.length = 4) :
    (∀ i, i < 8 → (statusBytes c)[4 + i]? = (c.demands[i]?).map demandByte) ∧
      (statusBytes c)[12]? = some (byteOf c.doubtful) ∧
      (∀ i, i < 4 → (statusBytes c)[13 + i]? = (c.groups[i]?).map groupByte) ∧
      (∀ i, i < 4 → (statusBytes c)[17 + i]? = (c.machines[i]?).map machineByte) ∧
      (statusBytes c)[21]? = some (byteOf (c.planId / 256)) ∧ (statusBytes c)[22]? = some (byteOf c.planId) ∧
      (statusBytes c)[23]? = some (byteOf c.version) := by
  have parts : statusBytes c = ([byteOf c.crossing.number, byteOf (bitOf c.protect 1 + bitOf c.held 2 + bitOf c.pending 4),
      byteOf c.owner.number, byteOf c.prior.number] ++ c.demands.map demandByte) ++ ([byteOf c.doubtful] ++
      (c.groups.map groupByte ++ (c.machines.map machineByte ++ (bytes2 c.planId ++ [byteOf c.version])))) := by
    simp only [statusBytes, List.append_assoc]
  refine ⟨fun i hi => ?_, ?_, fun i hi => ?_, fun i hi => ?_, ?_, ?_, ?_⟩
  · rw [getElem?_of_parts (n := 4) parts rfl (by simpa [demands] using hi), List.getElem?_map]
  · simp [statusBytes, demands]
  · rw [getElem?_of_parts (l := statusBytes c) (mid := c.groups.map groupByte)
      (by rw [parts, ← List.append_assoc, ← List.append_assoc]) (by simp [demands]) (by simpa [groups] using hi),
      List.getElem?_map]
  · rw [getElem?_of_parts (l := statusBytes c) (mid := c.machines.map machineByte)
      (by rw [parts, ← List.append_assoc, ← List.append_assoc, ← List.append_assoc]) (by simp [demands, groups])
      (by simpa [machines] using hi), List.getElem?_map]
  · simp [statusBytes, demands, groups, machines, bytes2]
  · simp [statusBytes, demands, groups, machines, bytes2]
  · simp [statusBytes, demands, groups, machines, bytes2]

/-- Byte `i` of two, and of four, most significant first. -/
theorem bytes2_at {n i : Nat} (h : i < 2) : (bytes2 n)[i]? = some (BitVec.ofNat 8 (n / 256 ^ (1 - i))) := by
  interval_cases i <;> simp [bytes2, byteOf]

theorem bytes4_at {n i : Nat} (h : i < 4) : (bytes4 n)[i]? = some (BitVec.ofNat 8 (n / 256 ^ (3 - i))) := by
  interval_cases i <;> simp [bytes4, byteOf]

/-- The bytes of a REPORT body behind its first seven (R50). -/
theorem reportBytes_at (r : ReportContent) :
    (∀ i, i < 2 → (reportBytes r)[7 + i]? = some (BitVec.ofNat 8 (r.raises / 256 ^ (1 - i)))) ∧
      (∀ i, i < 4 → (reportBytes r)[9 + i]? = some (BitVec.ofNat 8 (r.first.toNat / 256 ^ (3 - i)))) ∧
      ∀ i, i < 4 → (reportBytes r)[13 + i]? = some (BitVec.ofNat 8 (r.last.toNat / 256 ^ (3 - i))) := by
  refine ⟨fun i hi => ?_, fun i hi => ?_, fun i hi => ?_⟩
  · rw [← bytes2_at hi]
    exact getElem?_of_parts (List.append_assoc _ _ _) rfl hi
  · rw [← bytes4_at hi]
    exact getElem?_of_parts rfl rfl hi
  · rw [← bytes4_at hi]
    exact getElem?_of_parts (List.append_nil _).symm rfl hi

/-! ### What is sent reads back (O30) -/

/-- Settles O30: the frame and the COUNT read back, and each body by its layout. -/
theorem telegramsReadBack : Obligations.TelegramsReadBack := by
  refine ⟨fun t => check_frameOf, fun c => countOf_countBytes, by decide, fun t => ⟨_, rfl, ?_⟩, fun c => ?_,
    fun tag o d => ⟨replyDataBytes d, length_replyDataBytes d, fun none => by rw [none]; rfl, rfl⟩,
    fun s => ⟨by simp [State.statusNow], by simp [State.statusNow], by simp [State.statusNow]⟩,
    fun c b demands groups machines body => ?_, fun r b body => ?_⟩
  case refine_1 => simp [frameOf, startByte, bytes2, byteOf]
  case refine_2 =>
    rw [← byteOf_flag]
    simp [Payload.bytes, kindCount, countBytes, bytes2, byteOf]
  case refine_3 =>
    obtain rfl : statusBytes c = b := (Prod.mk.inj body).2
    obtain ⟨demandsAt, doubtful, groupsAt, machinesAt, ending⟩ := statusBytes_at demands groups machines
    refine ⟨length_statusBytes demands groups machines, rfl, congrArg some (byteOf_flags3 c.protect c.held c.pending), rfl,
      rfl, fun i hi => ?_, doubtful, fun i hi => ?_, fun i hi => ?_, ending⟩
    · rw [demandsAt i hi]; exact congrArg (fun f => (c.demands[i]?).map f) (funext demandByte_eq)
    · rw [groupsAt i hi]; exact congrArg (fun f => (c.groups[i]?).map f) (funext fun g => by cases g <;> rfl)
    · rw [machinesAt i hi]; exact congrArg (fun f => (c.machines[i]?).map f) (funext fun m => by cases m <;> rfl)
  case refine_4 =>
    obtain rfl : reportBytes r = b := (Prod.mk.inj body).2
    exact ⟨rfl, rfl, rfl, rfl, rfl, rfl, rfl, congrArg some (byteOf_flags2 r.active r.latched), reportBytes_at r⟩

end Sys2Proof.Machine

namespace Sys2Proof.Machine

open Sys2Proof

/-! ### What the end of a step may change -/

theorem TrafficOnly.refl (l : Lif) : TrafficOnly l l := rfl

theorem TrafficOnly.trans {l m n : Lif} (h : TrafficOnly l m) (k : TrafficOnly m n) : TrafficOnly l n := by
  unfold TrafficOnly at h k ⊢
  exact k.trans (by rw [h])

theorem RecordsOnly.refl (t : FaultTable) : RecordsOnly t t := rfl

theorem RecordsOnly.trans {t u v : FaultTable} (h : RecordsOnly t u) (k : RecordsOnly u v) : RecordsOnly t v := by
  unfold RecordsOnly at h k ⊢
  exact k.trans (by rw [h])

/-- The process, the timeouts and the enables stand. -/
theorem RecordsOnly.keeps {t u : FaultTable} (h : RecordsOnly t u) : u.process = t.process ∧ u.timeouts = t.timeouts ∧
    u.advisory = t.advisory ∧ u.info = t.info := by
  unfold RecordsOnly at h
  rw [h]
  exact ⟨rfl, rfl, rfl, rfl⟩

theorem LineFrame.refl (s : State) : LineFrame s s := ⟨rfl, rfl, rfl⟩

theorem LineFrame.trans {s t u : State} (h : LineFrame s t) (k : LineFrame t u) : LineFrame s u := by
  obtain ⟨line, records, rest⟩ := h
  obtain ⟨line', records', rest'⟩ := k
  exact ⟨line.trans line', records.trans records', rest'.trans (by rw [rest])⟩

/-- Of the line counters of a port only those of offers that were not accepted, or took another's place, differ (R42, R46). -/
def OfferCounts (c d : Counters) : Prop := d = { c with notActive := d.notActive, full := d.full, replaced := d.replaced }

theorem OfferCounts.refl (c : Counters) : OfferCounts c c := rfl

theorem OfferCounts.trans {c d e : Counters} (h : OfferCounts c d) (k : OfferCounts d e) : OfferCounts c e := by
  unfold OfferCounts at h k ⊢
  exact k.trans (by rw [h])

/-- What the end of a step that makes no swap changes: traffic, fault records, the last STATUS, and of the line counters those
of offers alone. -/
structure EndFrame (s t : State) : Prop where
  frame : LineFrame s t
  counters : ∀ p : Port, OfferCounts (s.port p).counters (t.port p).counters

theorem EndFrame.refl (s : State) : EndFrame s s := ⟨.refl s, fun _ => rfl⟩

theorem EndFrame.trans {s t u : State} (h : EndFrame s t) (k : EndFrame t u) : EndFrame s u :=
  ⟨h.frame.trans k.frame, fun p => (h.counters p).trans (k.counters p)⟩

/-! ### The pending record to take next (R183, R185) -/

theorem mem_pendingSet (t : FaultTable) (c : FaultClass) (n : Nat) :
    n ∈ t.pendingSet c ↔ ∃ r, t.get n = some r ∧ r.report = .pending ∧ r.cls = c := by
  unfold FaultTable.pendingSet
  rw [List.mem_filter, List.mem_range]
  cases h : t.get n with
  | none => simp
  | some r =>
    have inside : n < 64 := by
      by_contra beyond
      rw [get_beyond t (by omega)] at h
      cases h
    simp [inside]

theorem mem_served (c : FaultClass) : c ∈ FaultClass.served := by cases c <;> decide

/-- A slot taken next holds a PENDING record of an enabled class. -/
theorem nextSlot_pending {t : FaultTable} {n : Nat} (h : t.nextSlot = some n) :
    ∃ r, t.get n = some r ∧ r.report = .pending ∧ t.enabled r.cls = true := by
  obtain ⟨c, hc, hn⟩ := List.mem_flatMap.1 (List.mem_of_mem_head? (Option.mem_def.2 h))
  obtain ⟨r, get, pending, rfl⟩ := (mem_pendingSet t c n).1 hn
  exact ⟨r, get, pending, (List.mem_filter.1 hc).2⟩

theorem nextSlot_none {t : FaultTable}
    (h : ∀ n r, t.get n = some r → r.report = .pending → t.enabled r.cls = false) : t.nextSlot = none := by
  cases next : t.nextSlot with
  | none => rfl
  | some n =>
    obtain ⟨r, get, pending, enabled⟩ := nextSlot_pending next
    rw [h n r get pending] at enabled
    cases enabled

/-- The lowest slot of a pending set comes first in it. -/
theorem head_pendingSet {t : FaultTable} {c : FaultClass} {n : Nat} (mem : n ∈ t.pendingSet c)
    (lowest : ∀ m ∈ t.pendingSet c, n ≤ m) : (t.pendingSet c).head? = some n := by
  have rising : (t.pendingSet c).Pairwise (· < ·) := List.pairwise_lt_range.filter _
  cases h : t.pendingSet c with
  | nil => rw [h] at mem; cases mem
  | cons m l =>
    rw [h] at rising mem lowest
    rcases List.mem_cons.1 mem with rfl | tail
    · rfl
    · have := (List.pairwise_cons.1 rising).1 n tail
      have := lowest m List.mem_cons_self
      omega

/-- The place of a class among those served: the most serious first (R174, R185). -/
theorem served_falls {rank : FaultClass → Nat} (info : rank .info = 0) (advisory : rank .advisory = 1)
    (urgent : rank .urgent = 2) (safety : rank .safety = 3) : FaultClass.served.Pairwise fun c d => rank d < rank c := by
  simp [FaultClass.served, info, advisory, urgent, safety]

/-- The record of the highest enabled class, and of these of the lowest slot, is taken next (R185). -/
theorem nextSlot_of_best {t : FaultTable} {rank : FaultClass → Nat}
    (falls : FaultClass.served.Pairwise fun c d => rank d < rank c) {n : Nat} {r : FaultRec} (get : t.get n = some r)
    (pending : r.report = .pending) (enabled : t.enabled r.cls = true)
    (best : ∀ m x, t.get m = some x → x.report = .pending → t.enabled x.cls = true →
      rank x.cls < rank r.cls ∨ (x.cls = r.cls ∧ n ≤ m)) : t.nextSlot = some n := by
  obtain ⟨higher, lower, split⟩ := List.append_of_mem (List.mem_filter.2 ⟨mem_served r.cls, enabled⟩)
  have order := falls.filter t.enabled
  rw [split, List.pairwise_append] at order
  have none_higher : higher.flatMap t.pendingSet = [] := by
    refine List.flatMap_eq_nil_iff.2 fun c hc => List.eq_nil_iff_forall_not_mem.2 fun m hm => ?_
    obtain ⟨x, hx, px, rfl⟩ := (mem_pendingSet t c m).1 hm
    have on : t.enabled x.cls = true :=
      (List.mem_filter.1 (split ▸ List.mem_append_left _ hc : x.cls ∈ FaultClass.served.filter t.enabled)).2
    have above : rank r.cls < rank x.cls := order.2.2 x.cls hc r.cls List.mem_cons_self
    rcases best m x hx px on with below | ⟨same, -⟩
    · omega
    · rw [same] at above; omega
  have first : (t.pendingSet r.cls).head? = some n := by
    refine head_pendingSet ((mem_pendingSet t r.cls n).2 ⟨r, get, pending, rfl⟩) fun m hm => ?_
    obtain ⟨x, hx, px, cls⟩ := (mem_pendingSet t r.cls m).1 hm
    rcases best m x hx px (by rw [cls]; exact enabled) with below | ⟨-, le⟩
    · rw [cls] at below; omega
    · exact le
  rw [FaultTable.nextSlot, split, List.flatMap_append, none_higher, List.nil_append, List.flatMap_cons, List.head?_append,
    first]
  rfl

/-! ### A record taken for sending (R185) -/

theorem put_recordsOnly (t : FaultTable) (n : Nat) (r : FaultRec) : RecordsOnly t (t.put n r) := by
  simp only [FaultTable.put]
  repeat' split
  all_goals rfl

theorem update_recordsOnly (t : FaultTable) (n : Nat) (f : FaultRec → FaultRec) : RecordsOnly t (t.update n f) := by
  unfold FaultTable.update
  split
  · rfl
  · exact put_recordsOnly t n _

theorem take_recordsOnly (t : FaultTable) (now : Time) (n : Nat) : RecordsOnly t (t.take now n) :=
  (update_recordsOnly t n _).trans rfl

/-- A slot that holds a record is one of the 64. -/
theorem le_of_get {t : FaultTable} {n : Nat} {r : FaultRec} (h : t.get n = some r) : n ≤ 63 := by
  by_contra beyond
  rw [get_beyond t (by omega)] at h
  cases h

theorem get_take_same {t : FaultTable} {n : Nat} {r : FaultRec} (now : Time) (h : t.get n = some r) :
    (t.take now n).get n = some { r with report := .sent, ackBy := some (after now 5000) } := by
  show (t.update n _).get n = _
  rw [get_update_same t _ (le_of_get h), h]
  rfl

theorem get_take_other {t : FaultTable} {n m : Nat} (now : Time) (h : m ≠ n) : (t.take now n).get m = t.get m :=
  get_update_other t _ h

theorem take_window {t : FaultTable} {n : Nat} {r : FaultRec} (now : Time) (h : t.get n = some r) :
    (t.take now n).window = t.window ++ [n] := by
  show (t.update n _).window ++ [n] = _
  rw [update_some t _ h, put_window t _ (le_of_get h), if_pos rfl]

/-- The REPORT that a record taken for sending joins class 2 with (R50, R185). -/
def reportWaiting (a : Byte) (n : Nat) (r : FaultRec) : Waiting := ownTelegram a 0 (.report (reportOf n r))

/-- The state with a record taken and its REPORT at the tail of class 2. -/
def State.taken (s : State) (a : Byte) (n : Nat) (r : FaultRec) : State :=
  { s with faults := s.faults.take s.clock n, lif := { s.lif with q2 := s.lif.q2 ++ [reportWaiting a n r] } }

theorem mayReport_iff (s : State) : s.mayReport = true ↔ s.faults.process = .running ∧ s.faults.window.length < 4 ∧
    s.lif.box.state = .active ∧ s.lif.q2.length < 16 := by
  simp [State.mayReport, State.boxAccepts, Lif.queue, classRoom, and_assoc]

theorem takeReport_of_next {s : State} {a : Byte} {n : Nat} {r : FaultRec} (station : s.lif.station = some a)
    (may : s.mayReport = true) (next : s.faults.nextSlot = some n) (get : s.faults.get n = some r) :
    s.takeReport = s.taken a n r := by
  obtain ⟨-, -, active, room⟩ := (mayReport_iff s).1 may
  simp [State.takeReport, station, may, next, get, State.offerBox, active, Lif.queue, room, classRoom, Lif.setQueue,
    State.taken, reportWaiting]

/-- One attempt to take a record leaves the state, or takes the record that is next. -/
theorem takeReport_cases (s : State) : s.takeReport = s ∨ ∃ a n r, s.lif.station = some a ∧ s.mayReport = true ∧
    s.faults.nextSlot = some n ∧ s.faults.get n = some r ∧ s.takeReport = s.taken a n r := by
  cases station : s.lif.station with
  | none => exact .inl (by simp [State.takeReport, station])
  | some a =>
    cases may : s.mayReport with
    | false => exact .inl (by simp [State.takeReport, station, may])
    | true =>
      cases next : s.faults.nextSlot with
      | none => exact .inl (by simp [State.takeReport, station, next])
      | some n =>
        obtain ⟨r, get, -⟩ := nextSlot_pending next
        exact .inr ⟨a, n, r, rfl, rfl, rfl, get, takeReport_of_next station may next get⟩

theorem takeReport_of_not_may {s : State} (h : s.lif.station = none ∨ s.mayReport = false ∨ s.faults.nextSlot = none) :
    s.takeReport = s := by
  rcases takeReport_cases s with same | ⟨a, n, r, station, may, next, -⟩
  · exact same
  · rw [station, may, next] at h
    simp at h

/-- An attempt that changes the state adds one slot to a window of less than four. -/
theorem takeReport_window (s : State) : s.takeReport = s ∨
    (s.faults.window.length < 4 ∧ s.takeReport.faults.window.length = s.faults.window.length + 1) := by
  rcases takeReport_cases s with same | ⟨a, n, r, -, may, -, get, taken⟩
  · exact .inl same
  · refine .inr ⟨((mayReport_iff s).1 may).2.1, ?_⟩
    rw [taken]
    show (s.faults.take s.clock n).window.length = _
    rw [take_window _ get, List.length_append]
    rfl

/-- Four attempts are enough: a fifth finds the window full or no record to take (R185). -/
theorem selectReports_takeReport (s : State) : s.selectReports.takeReport = s.selectReports := by
  unfold State.selectReports
  have settled {t : State} (h : t.takeReport = t) : t.takeReport.takeReport = t.takeReport := by rw [h, h]
  rcases takeReport_window s with h | ⟨-, h1⟩
  · exact settled (settled (settled (settled h)))
  rcases takeReport_window s.takeReport with h | ⟨-, h2⟩
  · exact settled (settled (settled h))
  rcases takeReport_window s.takeReport.takeReport with h | ⟨-, h3⟩
  · exact settled (settled h)
  rcases takeReport_window s.takeReport.takeReport.takeReport with h | ⟨-, h4⟩
  · exact settled h
  rcases takeReport_window s.takeReport.takeReport.takeReport.takeReport with h | ⟨h5, -⟩
  · exact h
  · omega

/-- The records of the table apart from how far their reports have come. -/
def FaultTable.unreported (t : FaultTable) (n : Nat) : Option FaultRec :=
  (t.get n).map fun r => { r with report := .pending, ackBy := none }

theorem unreported_take {t : FaultTable} {n : Nat} {r : FaultRec} (now : Time) (h : t.get n = some r) (m : Nat) :
    (t.take now n).unreported m = t.unreported m := by
  unfold FaultTable.unreported
  by_cases same : m = n
  · rw [same, get_take_same now h, h]
    rfl
  · rw [get_take_other now same]

theorem takeReport_frame (s : State) : EndFrame s s.takeReport ∧
    ∀ n, s.takeReport.faults.unreported n = s.faults.unreported n := by
  rcases takeReport_cases s with same | ⟨a, n, r, -, -, -, get, taken⟩
  · rw [same]
    exact ⟨.refl s, fun _ => rfl⟩
  · rw [taken]
    exact ⟨⟨⟨rfl, take_recordsOnly _ _ _, rfl⟩, fun p => by cases p <;> rfl⟩, unreported_take _ get⟩

theorem selectReports_frame (s : State) : EndFrame s s.selectReports ∧
    ∀ n, s.selectReports.faults.unreported n = s.faults.unreported n := by
  have step {t : State} (h : EndFrame s t ∧ ∀ n, t.faults.unreported n = s.faults.unreported n) :
      EndFrame s t.takeReport ∧ ∀ n, t.takeReport.faults.unreported n = s.faults.unreported n :=
    ⟨h.1.trans (takeReport_frame t).1, fun n => ((takeReport_frame t).2 n).trans (h.2 n)⟩
  exact step (step (step (takeReport_frame s)))

/-! ### The STATUS (R42, R191) -/

/-- A change of the queues, credits and transmissions alone. -/
theorem EndFrame.of_traffic {s : State} {l : Lif} (traffic : TrafficOnly s.lif l)
    (box : OfferCounts s.lif.box.counters l.box.counters) (field : OfferCounts s.lif.field.counters l.field.counters) :
    EndFrame s { s with lif := l } := ⟨⟨traffic, rfl, rfl⟩, fun p => by cases p; exacts [box, field]⟩

theorem setQueue_traffic (l : Lif) (cls : Nat) (q : List Waiting) : TrafficOnly l (l.setQueue cls q) ∧
    (l.setQueue cls q).box = l.box ∧ (l.setQueue cls q).field = l.field := by
  unfold Lif.setQueue
  split <;> exact ⟨rfl, rfl, rfl⟩

/-- A telegram offered to a box class, by the state of the port and the room of the class (R42). -/
theorem offerBox_of_down {s : State} (down : s.lif.box.state ≠ .active) (cls : Nat) (w : Waiting) :
    s.offerBox cls w = s.count .box fun c => { c with notActive := up16 c.notActive } := if_pos down

theorem offerBox_of_room {s : State} {cls : Nat} (active : s.lif.box.state = .active) (room : (s.lif.queue cls).length < 16)
    (w : Waiting) : s.offerBox cls w = { s with lif := s.lif.setQueue cls (s.lif.queue cls ++ [w]) } :=
  (if_neg (not_not.2 active)).trans (if_pos room)

theorem offerBox_of_full {s : State} {cls : Nat} (active : s.lif.box.state = .active) (full : 16 ≤ (s.lif.queue cls).length)
    (w : Waiting) : s.offerBox cls w = s.count .box fun c => { c with full := up16 c.full } :=
  (if_neg (not_not.2 active)).trans (if_neg (Nat.not_lt.2 full))

theorem offerBox_end (s : State) (cls : Nat) (w : Waiting) : EndFrame s (s.offerBox cls w) := by
  unfold State.offerBox
  split
  · exact EndFrame.of_traffic rfl rfl rfl
  · split
    · obtain ⟨traffic, box, field⟩ := setQueue_traffic s.lif cls (s.lif.queue cls ++ [w])
      exact EndFrame.of_traffic traffic (by rw [box]; exact .refl _) (by rw [field]; exact .refl _)
    · exact EndFrame.of_traffic rfl rfl rfl

theorem any_isStatus (q : List Waiting) : q.any Waiting.isStatus = true ↔ ∃ x ∈ q, ∃ c, x.payload = .status c := by
  have one (x : Waiting) : x.isStatus = true ↔ ∃ c, x.payload = .status c := by
    unfold Waiting.isStatus
    cases x.payload <;> simp
  simp only [List.any_eq_true, one]

theorem offerStatus_of_waiting {s : State} (active : s.lif.box.state = .active)
    (waiting : ∃ x ∈ s.lif.q3, ∃ c, x.payload = .status c) (w : Waiting) : s.offerStatus w =
      State.count { s with lif := { s.lif with q3 := replaceStatus w s.lif.q3 } } .box
        fun c => { c with replaced := up16 c.replaced } := if_pos ⟨active, (any_isStatus _).2 waiting⟩

theorem offerStatus_of_none {s : State} (none : ∀ x ∈ s.lif.q3, ∀ c, x.payload ≠ .status c) (w : Waiting) :
    s.offerStatus w = s.offerBox 3 w :=
  if_neg fun h => by
    obtain ⟨x, hx, c, hc⟩ := (any_isStatus _).1 h.2
    exact none x hx c hc

theorem replaceStatus_eq (w : Waiting) (q : List Waiting) : replaceStatus w q = q.map fun x => match x.payload with
    | .status _ => w
    | _ => x := by
  refine List.map_congr_left fun x _ => ?_
  unfold Waiting.isStatus
  cases x.payload <;> rfl

theorem offerStatus_end (s : State) (w : Waiting) : EndFrame s (s.offerStatus w) := by
  unfold State.offerStatus
  split
  · exact EndFrame.of_traffic rfl rfl rfl
  · exact offerBox_end s 3 w

theorem buildStatus_of_station {s : State} {a : Byte} (station : s.lif.station = some a) (active : s.lif.box.state = .active) :
    s.buildStatus = State.offerStatus { s with builder := ⟨some s.statusNow, some s.clock⟩ }
      (ownTelegram a 0 (.status s.statusNow)) := by simp [State.buildStatus, station, active]

theorem buildStatus_of_mute {s : State} (h : s.lif.box.state ≠ .active ∨ s.lif.station = none) : s.buildStatus = s := by
  unfold State.buildStatus
  split
  · rfl
  · rename_i a station
    rcases h with down | none
    · rw [if_neg down]
    · rw [station] at none; cases none

theorem buildStatus_end (s : State) : EndFrame s s.buildStatus ∧ s.buildStatus.faults = s.faults := by
  by_cases mute : s.lif.box.state ≠ .active ∨ s.lif.station = none
  · rw [buildStatus_of_mute mute]
    exact ⟨.refl s, rfl⟩
  · obtain ⟨active, station⟩ := not_or.1 mute
    obtain ⟨a, station⟩ := Option.ne_none_iff_exists'.1 station
    rw [buildStatus_of_station station (not_not.1 active)]
    have built : EndFrame s { s with builder := ⟨some s.statusNow, some s.clock⟩ } :=
      ⟨⟨rfl, rfl, rfl⟩, fun p => by cases p <;> rfl⟩
    refine ⟨built.trans (offerStatus_end _ _), ?_⟩
    unfold State.offerStatus State.offerBox
    repeat' split
    all_goals rfl

theorem statusIfChanged_of_same {s : State} (h : s.builder.last = some s.statusNow) : s.statusIfChanged = s := by
  simp [State.statusIfChanged, State.statusChanged, h]

theorem statusIfChanged_of_changed {s : State} (h : s.builder.last ≠ some s.statusNow) :
    s.statusIfChanged = s.buildStatus := by simp [State.statusIfChanged, State.statusChanged, h]

theorem statusIfChanged_end (s : State) : EndFrame s s.statusIfChanged ∧ s.statusIfChanged.faults = s.faults := by
  unfold State.statusIfChanged
  split
  · exact buildStatus_end s
  · exact ⟨.refl s, rfl⟩

/-! ### The transmitters (R43, R44) -/

theorem startBox_of_busy {s : State} (h : s.lif.box.state ≠ .active ∨ s.lif.box.sending ≠ none) : s.startBox = s :=
  if_neg fun idle => h.elim (· idle.1) (· idle.2)

theorem startField_of_busy {s : State} (h : s.lif.field.state ≠ .active ∨ s.lif.field.sending ≠ none ∨ s.lif.qf = []) :
    s.startField = s := by
  unfold State.startField
  split
  · rename_i idle
    rcases h with down | busy | empty
    · exact absurd idle.1 down
    · exact absurd idle.2 busy
    · rw [empty]
  · rfl

theorem startField_of_idle {s : State} {w : Waiting} {q : List Waiting} (active : s.lif.field.state = .active)
    (idle : s.lif.field.sending = none) (queue : s.lif.qf = w :: q) : s.startField = { s with lif := { s.lif with
      qf := q, field := { s.lif.field with sending := some (w.send s.pins.fast s.moment) } } } := by
  simp [State.startField, active, idle, queue]

theorem startField_end (s : State) : EndFrame s s.startField ∧ s.startField.faults = s.faults := by
  unfold State.startField
  split
  · split
    · exact ⟨.refl s, rfl⟩
    · exact ⟨EndFrame.of_traffic rfl rfl rfl, rfl⟩
  · exact ⟨.refl s, rfl⟩

theorem sendClass_end (s : State) (cls : Nat) : EndFrame s (s.sendClass cls) ∧ (s.sendClass cls).faults = s.faults := by
  have spend (l : Lif) : TrafficOnly l (l.spend cls) ∧ (l.spend cls).box = l.box ∧ (l.spend cls).field = l.field := by
    unfold Lif.spend
    split <;> exact ⟨rfl, rfl, rfl⟩
  unfold State.sendClass
  split
  · exact ⟨.refl s, rfl⟩
  · rename_i w q queue
    obtain ⟨taken, box, field⟩ := setQueue_traffic s.lif cls q
    obtain ⟨spent, box', field'⟩ := spend (s.lif.setQueue cls q)
    refine ⟨EndFrame.of_traffic ((taken.trans spent).trans rfl) ?_ ?_, rfl⟩
    · show OfferCounts _ ((s.lif.setQueue cls q).spend cls).box.counters
      rw [box', box]
      exact .refl _
    · show OfferCounts _ ((s.lif.setQueue cls q).spend cls).field.counters
      rw [field', field]
      exact .refl _

/-- The class to serve is chosen in the state as it is, or at the begin of a new round (R43). -/
theorem chooseClass_cases {s t : State} {c : Nat} (h : s.chooseClass = some (c, t)) : t = s ∨ t = s.newRound := by
  unfold State.chooseClass at h
  split at h
  · exact .inl (Prod.mk.inj (Option.some.inj h)).2.symm
  · split at h
    · exact .inl (Prod.mk.inj (Option.some.inj h)).2.symm
    · split at h
      · cases h
      · obtain ⟨_, -, pair⟩ := Option.map_eq_some_iff.1 h
        exact .inr (Prod.mk.inj pair).2.symm

theorem startBox_end (s : State) : EndFrame s s.startBox ∧ s.startBox.faults = s.faults := by
  unfold State.startBox
  split
  · split
    · exact ⟨.refl s, rfl⟩
    · rename_i c t chosen
      have round : EndFrame s t ∧ t.faults = s.faults := by
        rcases chooseClass_cases chosen with rfl | rfl
        · exact ⟨.refl _, rfl⟩
        · exact ⟨EndFrame.of_traffic rfl rfl rfl, rfl⟩
      exact ⟨round.1.trans (sendClass_end t c).1, (sendClass_end t c).2.trans round.2⟩
  · exact ⟨.refl s, rfl⟩

/-- The idle transmitter of an ACTIVE box port sends from the class it chooses. -/
theorem startBox_of_choice {s t : State} {c : Nat} (active : s.lif.box.state = .active) (idle : s.lif.box.sending = none)
    (choice : s.chooseClass = some (c, t)) : s.startBox = t.sendClass c := by simp [State.startBox, active, idle, choice]

theorem served2_iff (l : Lif) : l.served 2 = true ↔ l.q2 ≠ [] ∧ 0 < l.credit2 := by simp [Lif.served]
theorem served1_iff (l : Lif) : l.served 1 = true ↔ l.q1 ≠ [] ∧ 0 < l.credit1 := by simp [Lif.served]
theorem served0_iff (l : Lif) : l.served 0 = true ↔ l.q0 ≠ [] ∧ 0 < l.credit0 := by simp [Lif.served]

/-- A class without a telegram or without credit is not served (R43). -/
theorem not_served2 {l : Lif} (h : l.q2 = [] ∨ l.credit2 = 0) : l.served 2 = false := by
  rcases h with h | h <;> simp [Lif.served, h]
theorem not_served1 {l : Lif} (h : l.q1 = [] ∨ l.credit1 = 0) : l.served 1 = false := by
  rcases h with h | h <;> simp [Lif.served, h]
theorem not_served0 {l : Lif} (h : l.q0 = [] ∨ l.credit0 = 0) : l.served 0 = false := by
  rcases h with h | h <;> simp [Lif.served, h]

/-- With class 3 empty the class of the round is chosen (R43). -/
theorem chooseClass_inRound {s : State} {c : Nat} (empty : s.lif.q3 = []) (round : s.lif.inRound = some c) :
    s.chooseClass = some (c, s) := by simp [State.chooseClass, empty, round]

/-- A new round finds a class to serve when one of the classes 2 to 0 has a telegram. -/
theorem newRound_inRound {s : State} (w2 : 0 < s.weight2) (w1 : 0 < s.weight1) (w0 : 0 < s.weight0)
    (some_waits : ¬ (s.lif.q2 = [] ∧ s.lif.q1 = [] ∧ s.lif.q0 = [])) : ∃ c, s.newRound.lif.inRound = some c := by
  unfold Lif.inRound
  split
  · exact ⟨_, rfl⟩
  · rename_i h2
    split
    · exact ⟨_, rfl⟩
    · rename_i h1
      split
      · exact ⟨_, rfl⟩
      · rename_i h0
        rw [served2_iff] at h2
        rw [served1_iff] at h1
        rw [served0_iff] at h0
        exact absurd ⟨not_not.1 fun q => h2 ⟨q, w2⟩, not_not.1 fun q => h1 ⟨q, w1⟩, not_not.1 fun q => h0 ⟨q, w0⟩⟩ some_waits

/-- When no class of the round can be served, the transmitter serves as at the begin of a new round (R43). -/
theorem startBox_newRound {s : State} (active : s.lif.box.state = .active) (idle : s.lif.box.sending = none)
    (empty : s.lif.q3 = []) (spent : s.lif.inRound = none) (w2 : 0 < s.weight2) (w1 : 0 < s.weight1) (w0 : 0 < s.weight0)
    (some_waits : ¬ (s.lif.q2 = [] ∧ s.lif.q1 = [] ∧ s.lif.q0 = [])) : s.startBox = s.newRound.startBox := by
  obtain ⟨c, round⟩ := newRound_inRound w2 w1 w0 some_waits
  have choice : s.chooseClass = some (c, s.newRound) := by
    simp [State.chooseClass, empty, spent, round]
    exact fun q2 q1 q0 => some_waits ⟨q2, q1, q0⟩
  rw [startBox_of_choice active idle choice,
    startBox_of_choice (s := s.newRound) active idle (chooseClass_inRound empty round)]

theorem startBox_of_empty {s : State} (q3 : s.lif.q3 = []) (q2 : s.lif.q2 = []) (q1 : s.lif.q1 = []) (q0 : s.lif.q0 = []) :
    s.startBox = s := by
  have none : s.chooseClass = none := by simp [State.chooseClass, Lif.inRound, Lif.served, q3, q2, q1, q0]
  simp [State.startBox, none]

/-! ### The end of a step (O5) -/

/-- What the end of a step that makes no swap changes, and what of the records stands. -/
theorem finish_frame (s : State) : EndFrame s s.finish ∧ ∀ n, s.finish.faults.unreported n = s.faults.unreported n := by
  obtain ⟨first, records⟩ := selectReports_frame s
  obtain ⟨status, same⟩ := statusIfChanged_end s.selectReports
  obtain ⟨box, same'⟩ := startBox_end s.selectReports.statusIfChanged
  obtain ⟨field, same''⟩ := startField_end s.selectReports.statusIfChanged.startBox
  obtain ⟨last, records'⟩ := selectReports_frame s.selectReports.statusIfChanged.startSending
  refine ⟨(((first.trans status).trans box).trans field).trans last, fun n => (records' n).trans ?_⟩
  show s.selectReports.statusIfChanged.startBox.startField.faults.unreported n = _
  rw [same'', same', same, records]

/-- Settles O5, clause by clause from the lemmas about reports, the STATUS and the two transmitters. -/
theorem finishLeavesAllButTraffic : Obligations.FinishLeavesAllButTraffic := by
  intro s
  refine ⟨(finish_frame s).1.frame, rfl, rfl, ?_, fun a changed active station => ?_, fun active w => ⟨fun waiting => ?_,
    fun none => ⟨fun room => ?_, fun full => ?_⟩⟩, (finish_frame s).2, startBox_of_busy, fun active idle w q b hb => ?_,
    fun w q => startField_of_idle, startField_of_busy, selectReports_takeReport s, fun h => ?_, ?_⟩
  · rintro (same | mute)
    · exact statusIfChanged_of_same same
    · unfold State.statusIfChanged
      rw [buildStatus_of_mute mute, ite_self]
  · rw [statusIfChanged_of_changed changed, buildStatus_of_station station active]
    rfl
  · rw [offerStatus_of_waiting active waiting, replaceStatus_eq]
    rfl
  · exact (offerStatus_of_none none w).trans (offerBox_of_room (cls := 3) active room w)
  · exact (offerStatus_of_none none w).trans (offerBox_of_full (cls := 3) active full w)
  · subst hb
    refine ⟨fun q3 => ?_, fun q3 q2 credit => ?_, fun q3 no2 q1 credit => ?_, fun q3 no2 no1 q0 credit => ?_,
      fun q3 no2 no1 no0 w2 w1 w0 some_waits => ?_, startBox_of_empty⟩
    · rw [startBox_of_choice active idle (c := 3) (t := s) (by simp [State.chooseClass, q3])]
      simp [State.sendClass, Lif.queue, Lif.setQueue, Lif.spend, q3]
    · have served := (served2_iff s.lif).2 ⟨by simp [q2], credit⟩
      rw [startBox_of_choice active idle (chooseClass_inRound q3 (c := 2) (by simp [Lif.inRound, served]))]
      simp [State.sendClass, Lif.queue, Lif.setQueue, Lif.spend, q2]
    · have served := (served1_iff s.lif).2 ⟨by simp [q1], credit⟩
      rw [startBox_of_choice active idle
        (chooseClass_inRound q3 (c := 1) (by simp [Lif.inRound, not_served2 no2, served]))]
      simp [State.sendClass, Lif.queue, Lif.setQueue, Lif.spend, q1]
    · have served := (served0_iff s.lif).2 ⟨by simp [q0], credit⟩
      rw [startBox_of_choice active idle
        (chooseClass_inRound q3 (c := 0) (by simp [Lif.inRound, not_served2 no2, not_served1 no1, served]))]
      simp [State.sendClass, Lif.queue, Lif.setQueue, Lif.spend, q0]
    · exact startBox_newRound active idle q3 (by simp [Lif.inRound, not_served2 no2, not_served1 no1, not_served0 no0])
        w2 w1 w0 some_waits
  · refine takeReport_of_not_may ?_
    rw [← Bool.not_eq_true, mayReport_iff]
    rcases h with h | h | h | h | h | h
    · exact .inl h
    · exact .inr (.inl fun may => h may.1)
    · exact .inr (.inl fun may => by omega)
    · exact .inr (.inl fun may => h may.2.2.1)
    · exact .inr (.inl fun may => by omega)
    · exact .inr (.inr (nextSlot_none h))
  · intro a n r rank info advisory urgent safety station running window active room get pending enabled best
    have next := nextSlot_of_best (served_falls info advisory urgent safety) get pending enabled best
    refine ⟨s.faults.take s.clock n,
      takeReport_of_next station ((mayReport_iff s).2 ⟨running, window, active, room⟩) next get, get_take_same _ get,
      fun m => get_take_other _, take_window _ get, take_recordsOnly _ _ _⟩

end Sys2Proof.Machine

namespace Sys2Proof.Machine

open Sys2Proof

/-! ### Every SENT record returned when the box port enters DOWN (R188) -/

/-- The window holds each slot of a SENT record once, and no other (R184). -/
def WindowLaw (t : FaultTable) : Prop := t.window.Nodup ∧ ∀ n, n ∈ t.window ↔ ∃ r, t.get n = some r ∧ r.report = .sent

/-- `u` is `t` with some of its SENT records returned to PENDING. -/
structure PartlyReturned (t u : FaultTable) : Prop where
  records : RecordsOnly t u
  window : WindowLaw u
  slots : ∀ n, u.get n = t.get n ∨ ∃ r, t.get n = some r ∧ r.report = .sent ∧ u.get n = some r.returned

theorem PartlyReturned.refl {t : FaultTable} (law : WindowLaw t) : PartlyReturned t t := ⟨rfl, law, fun _ => .inl rfl⟩

theorem return_window {t : FaultTable} {n : Nat} {r : FaultRec} (get : t.get n = some r) :
    (t.return n).window = t.window.filter fun m => decide (m ≠ n) := by
  rw [FaultTable.return, update_some t _ get, put_window t _ (le_of_get get), if_neg (by simp [FaultRec.returned])]

theorem get_return_same {t : FaultTable} {n : Nat} {r : FaultRec} (get : t.get n = some r) :
    (t.return n).get n = some r.returned := by
  rw [FaultTable.return, get_update_same t _ (le_of_get get), get]
  rfl

theorem get_return_other {t : FaultTable} {n m : Nat} (h : m ≠ n) : (t.return n).get m = t.get m := get_update_other t _ h

/-- A further SENT record returned. -/
theorem PartlyReturned.return {t u : FaultTable} (h : PartlyReturned t u) {n : Nat} {r : FaultRec} (get : u.get n = some r)
    (sent : r.report = .sent) : PartlyReturned t (u.return n) where
  records := h.records.trans (update_recordsOnly u n _)
  window := by
    refine ⟨by rw [return_window get]; exact h.window.1.filter _, fun m => ?_⟩
    rw [return_window get, List.mem_filter, h.window.2]
    by_cases same : m = n
    · subst same
      simp [get_return_same get, FaultRec.returned]
    · simp [get_return_other same, same]
  slots m := by
    by_cases same : m = n
    · subst same
      rcases h.slots m with stands | ⟨x, -, -, gone⟩
      · exact .inr ⟨r, stands ▸ get, sent, get_return_same get⟩
      · rw [get] at gone
        rw [Option.some.inj gone] at sent
        cases sent
    · rw [get_return_other same]
      exact h.slots m

theorem PartlyReturned.reportRemoved {t u : FaultTable} (h : PartlyReturned t u) (n : Nat) (change : Byte) :
    PartlyReturned t (u.reportRemoved n change) := by
  cases get : u.get n with
  | none => rw [FaultTable.reportRemoved, update_none u _ get]; exact h
  | some r =>
    by_cases named : r.report = .sent ∧ r.change = change
    · have same : u.reportRemoved n change = u.return n := by
        rw [FaultTable.reportRemoved, FaultTable.return, update_some u _ get, update_some u _ get, if_pos named]
      rw [same]
      exact h.return get named.1
    · have same : u.get n = (u.reportRemoved n change).get n := by
        rw [FaultTable.reportRemoved, get_update_same u _ (le_of_get get), get, Option.map_some, if_neg named]
      have slots (m : Nat) : (u.reportRemoved n change).get m = u.get m := by
        by_cases eq : m = n
        · rw [eq, same]
        · exact get_update_other u _ eq
      have window : (u.reportRemoved n change).window = u.window := by
        rw [FaultTable.reportRemoved, update_some u _ get, put_window u _ (le_of_get get), if_neg named]
        split
        · rfl
        · rename_i unsent
          refine List.filter_eq_self.2 fun m hm => decide_eq_true fun eq => ?_
          obtain ⟨x, hx, sx⟩ := (h.window.2 m).1 hm
          rw [eq, get] at hx
          exact unsent (Option.some.inj hx ▸ sx)
      refine ⟨h.records.trans (update_recordsOnly u n _), ?_, fun m => by rw [slots]; exact h.slots m⟩
      refine ⟨by rw [window]; exact h.window.1, fun m => ?_⟩
      rw [window, slots]
      exact h.window.2 m

/-- What the removal of one REPORT keeps, the removal of a queue keeps. -/
theorem removeReports_keeps {P : FaultTable → Prop} (keep : ∀ u n change, P u → P (u.reportRemoved n change)) {t : FaultTable}
    (h : P t) (q : List Waiting) : P (removeReports t q) := by
  unfold removeReports
  induction q generalizing t with
  | nil => exact h
  | cons w q ih =>
    refine ih ?_
    dsimp only
    split
    · exact keep t _ _ h
    · exact h

/-- Each slot of a list returned once. -/
theorem foldl_return {ns : List Nat} (nodup : ns.Nodup) {t : FaultTable} (there : ∀ n ∈ ns, ∃ r, t.get n = some r) :
    (ns.foldl FaultTable.return t).window = t.window.filter (fun m => decide (m ∉ ns)) ∧
      ∀ m, (ns.foldl FaultTable.return t).get m = if m ∈ ns then (t.get m).map FaultRec.returned else t.get m := by
  induction ns generalizing t with
  | nil => simp
  | cons n ns ih =>
    obtain ⟨fresh, nodup⟩ := List.nodup_cons.1 nodup
    obtain ⟨r, get⟩ := there n List.mem_cons_self
    have others {m : Nat} (hm : m ∈ ns) : m ≠ n := fun eq => fresh (eq ▸ hm)
    obtain ⟨window, slots⟩ := ih nodup (t := t.return n) fun m hm => by
      rw [get_return_other (others hm)]
      exact there m (List.mem_cons_of_mem n hm)
    rw [List.foldl_cons]
    refine ⟨?_, fun m => ?_⟩
    · rw [window, return_window get, List.filter_filter]
      refine List.filter_congr fun m _ => ?_
      simp [Bool.and_comm]
    · rw [slots m]
      by_cases eq : m = n
      · subst eq
        simp [fresh, get_return_same get, get]
      · simp [get_return_other eq, eq]

theorem returnAll_of_law {t : FaultTable} (law : WindowLaw t) : t.returnAll.window = [] ∧
    ∀ n, t.returnAll.get n = if n ∈ t.window then (t.get n).map FaultRec.returned else t.get n := by
  obtain ⟨window, slots⟩ := foldl_return law.1 (t := t) fun n hn => by
    obtain ⟨r, get, -⟩ := (law.2 n).1 hn
    exact ⟨r, get⟩
  refine ⟨window.trans (List.filter_eq_nil_iff.2 fun m hm => ?_), slots⟩
  simp [hm]

theorem returnAll_recordsOnly (t : FaultTable) : RecordsOnly t t.returnAll := by
  have fold (ns : List Nat) (u : FaultTable) : RecordsOnly u (ns.foldl FaultTable.return u) := by
    induction ns generalizing u with
    | nil => rfl
    | cons n ns ih => exact (update_recordsOnly u n _).trans (ih _)
  exact fold t.window t

theorem removeReports_recordsOnly (t : FaultTable) (q : List Waiting) : RecordsOnly t (removeReports t q) :=
  removeReports_keeps (P := RecordsOnly t) (fun u n _ h => h.trans (update_recordsOnly u n _)) (.refl t) q

/-- With the REPORTs of its queue removed and the box port DOWN, the window is empty and every SENT record is PENDING again,
returned once (R188). -/
theorem boxDown_slots {t : FaultTable} (law : WindowLaw t) (q : List Waiting) :
    (removeReports t q).boxDown.window = [] ∧ ∀ n, (removeReports t q).boxDown.get n =
      (t.get n).map fun r => if r.report = .sent then r.returned else r := by
  have partly := removeReports_keeps (fun _ n change h => h.reportRemoved n change) (PartlyReturned.refl law) q
  obtain ⟨window, slots⟩ := returnAll_of_law partly.window
  refine ⟨window, fun n => (slots n).trans ?_⟩
  simp only [partly.window.2]
  rcases partly.slots n with stands | ⟨r, get, sent, gone⟩
  · rw [stands]
    cases t.get n with
    | none => simp
    | some r => by_cases sent : r.report = .sent <;> simp [sent]
  · simp [get, sent, gone, FaultRec.returned]

/-! ### Entry to DOWN (R28, R45) -/

/-- A port in DOWN with its queues empty, the report process and the credits with it when it is the box port, before PORT_DOWN
is raised. -/
def State.silenced (s : State) : Port → State
  | .box =>
    let u := (s.onPort .box fun r => { r with state := .down }).emptyQueues .box
    State.newRound { u with faults := u.faults.boxDown }
  | .field => (s.onPort .field fun r => { r with state := .down }).emptyQueues .field

theorem enterDown_eq (s : State) (p : Port) : s.enterDown p =
    if (s.port p).state = .checking then s.silenced p else (s.silenced p).raise .portDown (portSource p) .urgent := by
  unfold State.enterDown
  cases p <;> simp [State.silenced]

theorem silenced_port (s : State) (p : Port) : ((s.silenced p).port p).state = .down := by cases p <;> rfl

theorem silenced_rest (s : State) (p : Port) :
    s.silenced p = { s with lif := (s.silenced p).lif, faults := (s.silenced p).faults } := by cases p <;> rfl

/-- Settles O25: before the 200 ms nothing, at their end the entry to DOWN, whose fault table is `boxDown_slots`. -/
theorem silenceTakesThePortDown : Obligations.SilenceTakesThePortDown := by
  intro p s
  refine ⟨fun heard => ?_, fun up silent => ?_⟩
  · show Host.Outcome.next (opPortTimeout p s).settle = _
    rw [opPortTimeout, if_neg (by rw [heard]; exact Bool.false_ne_true)]
  · have silentFor : (s.port p).silentFor s.clock = true := (silentFor_iff _ _).2 ⟨up, silent⟩
    refine ⟨s.silenced p, silenced_rest s p, silenced_port s p, ?_, fun box => ?_, fun field => ?_⟩
    · show Host.Outcome.next (opPortTimeout p s).settle = _
      rw [opPortTimeout, if_pos silentFor, enterDown_eq]
    · subst box
      obtain ⟨process, -⟩ := (removeReports_recordsOnly s.faults s.lif.q2).keeps
      obtain ⟨-, rest⟩ := ((removeReports_recordsOnly s.faults s.lif.q2).trans (returnAll_recordsOnly _)).keeps
      obtain ⟨timeouts, advisory, info⟩ := rest
      refine ⟨rfl, rfl, rfl, rfl, rfl, rfl, rfl, rfl, rfl, rfl, ?_, timeouts, advisory, info, fun law => ?_⟩
      · show (if (removeReports s.faults s.lif.q2).process = .running then Process.suspended
          else (removeReports s.faults s.lif.q2).process) = _
        rw [process]
      · obtain ⟨-, -, -, window⟩ := law
        exact boxDown_slots window s.lif.q2
    · subst field
      exact ⟨rfl, rfl, rfl⟩

end Sys2Proof.Machine

namespace Sys2Proof.Machine

open Sys2Proof

/-! ### The port records under raises and clears -/

@[simp] theorem port_raise (s : State) (c : FaultCode) (src : FaultSource) (cls : FaultClass) (p : Port) :
    (s.raise c src cls).port p = s.port p := by cases p <;> rfl

@[simp] theorem port_atMicros (s : State) (us : Nat) (p : Port) : (s.atMicros us).port p = s.port p := by cases p <;> rfl

@[simp] theorem clock_onPort (s : State) (p : Port) (f : PortRec → PortRec) : (s.onPort p f).clock = s.clock := by
  cases p <;> rfl

/-- What the end of a step leaves of a port record. -/
theorem EndFrame.port {s t : State} (h : EndFrame s t) (p : Port) :
    t.port p = { s.port p with counters := (t.port p).counters, sending := (t.port p).sending } := by
  have traffic := h.frame.1
  unfold TrafficOnly at traffic
  cases p
  · exact congrArg Lif.box traffic
  · exact congrArg Lif.field traffic

/-- The counters that offers do not move. -/
theorem OfferCounts.keeps {c d : Counters} (h : OfferCounts c d) :
    d.received = c.received ∧ d.errors = c.errors ∧ d.loops = c.loops := by
  unfold OfferCounts at h
  rw [h]
  exact ⟨rfl, rfl, rfl⟩

/-! ### The lists of error times and loop times (R34, R35) -/

theorem later_before (t now : Time) (len : Nat) : later t (before now len) = later (after t len) now := by
  have same : t - (now - BitVec.ofNat 32 len) = t + BitVec.ofNat 32 len - now := by ring
  rw [later, later, since, since, before, after, same]

theorem mem_pushOldest {α : Type} {n : Nat} {l : List α} {x y : α} (h : y ∈ pushOldest n l x) : y ∈ l ∨ y = x := by
  unfold pushOldest at h
  rcases List.mem_append.1 h with h | h
  · split at h
    · exact .inl (List.mem_of_mem_drop h)
    · exact .inl h
  · exact .inr (List.mem_singleton.1 h)

theorem pushOldest_ne_nil {α : Type} (n : Nat) (l : List α) (x : α) : pushOldest n l x ≠ [] := by simp [pushOldest]

theorem getLast?_pushOldest {α : Type} (n : Nat) (l : List α) (x : α) : (pushOldest n l x).getLast? = some x := by
  simp [pushOldest]

theorem pushOldest_of_le {α : Type} {n : Nat} {l : List α} (h : l.length ≤ n) (x : α) :
    pushOldest n l x = (if l.length = n then l.drop 1 else l) ++ [x] := by
  unfold pushOldest
  congr 1
  exact if_congr ⟨fun k => Nat.le_antisymm h k, fun k => k.ge⟩ rfl rfl

/-- A list of at most `n` entries stays so (R34, R35, R69). -/
theorem length_pushOldest_le {α : Type} {n : Nat} {l : List α} (pos : 0 < n) (h : l.length ≤ n) (x : α) :
    (pushOldest n l x).length ≤ n := by
  rw [pushOldest_of_le h, List.length_append]
  split
  · simp; omega
  · simp; omega

/-- Every time of a pruned list that the present one has joined is recent. -/
theorem recent_of_mem {n : Nat} {now t : Time} {l : List Time} (h : t ∈ pushOldest n (pruned now 10000 l) now) :
    later t (before now 10000) = true := by
  rw [later_before]
  rcases mem_pushOldest h with kept | rfl
  · rw [pruned_eq_filter] at kept
    exact (List.mem_filter.1 kept).2
  · simp [later, since, after]

/-- The test on the oldest time asks nothing more of a pruned list than its length does. -/
theorem full_iff (n : Nat) (now : Time) (l times : List Time) (h : times = pushOldest n (pruned now 10000 l) now) :
    (decide (times.length = n) && times.head?.any fun t => later t (before now 10000)) = decide (times.length = n) := by
  cases times with
  | nil => exact absurd h.symm (pushOldest_ne_nil _ _ _)
  | cons t rest =>
    have recent : later t (before now 10000) = true := recent_of_mem (h ▸ List.mem_cons_self)
    simp [recent]

/-! ### A check-1 failure (R33, R34) -/

/-- The error times of a port with the present one entered. -/
def State.errorsNow (s : State) (p : Port) : List Time :=
  pushOldest 21 (pruned s.clock 10000 (s.port p).errorTimes) s.clock

/-- An error entered in the list and counted. -/
def State.errorEntered (s : State) (p : Port) : State := s.onPort p fun r =>
  { r with errorTimes := s.errorsNow p, counters := { r.counters with errors := up16 r.counters.errors } }

theorem formatFailure_of_full {s : State} {p : Port} (full : (s.errorsNow p).length = 21)
    (off : (s.port p).lineErrors = false) : s.formatFailure p =
      State.raise ((s.errorEntered p).onPort p fun r => { r with lineErrors := true }) .lineErrors (portSource p) .advisory := by
  have test := full_iff 21 s.clock (s.port p).errorTimes (s.errorsNow p) rfl
  have on : decide ((s.errorsNow p).length = 21) = true := decide_eq_true full
  unfold State.formatFailure
  dsimp only
  rw [show pushOldest 21 (pruned s.clock 10000 (s.port p).errorTimes) s.clock = s.errorsNow p from rfl, test, on, off]
  simp only [Bool.not_false, Bool.and_self, if_true, State.errorEntered, onPort_onPort, Bool.or_true]

theorem formatFailure_of_short {s : State} {p : Port} (short : (s.errorsNow p).length ≠ 21 ∨ (s.port p).lineErrors = true) :
    s.formatFailure p = s.errorEntered p := by
  have test := full_iff 21 s.clock (s.port p).errorTimes (s.errorsNow p) rfl
  unfold State.formatFailure
  dsimp only
  rw [show pushOldest 21 (pruned s.clock 10000 (s.port p).errorTimes) s.clock = s.errorsNow p from rfl, test]
  rcases short with short | on
  · rw [decide_eq_false short]
    simp only [Bool.false_and, Bool.or_false, Bool.false_eq_true, if_false]
    rfl
  · rw [on, Bool.not_true, Bool.and_false, if_neg Bool.false_ne_true]
    exact onPort_congr (by rw [on, Bool.true_or])

/-- A check-1 failure is the error entered, and perhaps the line-errors condition. -/
theorem formatFailure_port (s : State) (p : Port) : ∃ b, (s.formatFailure p).port p =
    { (s.errorEntered p).port p with lineErrors := b } := by
  by_cases full : (s.errorsNow p).length = 21 ∧ (s.port p).lineErrors = false
  · exact ⟨true, by rw [formatFailure_of_full full.1 full.2, port_raise, port_onPort]⟩
  · refine ⟨_, congrArg (fun u => State.port u p) (formatFailure_of_short ?_)⟩
    rwa [not_and_or, Bool.not_eq_false] at full

/-! ### A loop discard (R35) -/

/-- The loop times of a port with the present one entered. -/
def State.loopsNow (s : State) (p : Port) : List Time :=
  pushOldest 3 (pruned s.clock 10000 (s.port p).loopTimes) s.clock

/-- A loop discard entered in the list and counted. -/
def State.loopEntered (s : State) (p : Port) : State := s.onPort p fun r =>
  { r with loopTimes := s.loopsNow p, counters := { r.counters with loops := up16 r.counters.loops } }

theorem loopDiscard_of_full {s : State} {p : Port} (full : (s.loopsNow p).length = 3)
    (off : (s.port p).lineLoop = false) : s.loopDiscard p =
      State.raise ((s.loopEntered p).onPort p fun r => { r with lineLoop := true }) .lineLoop (portSource p) .urgent := by
  have test := full_iff 3 s.clock (s.port p).loopTimes (s.loopsNow p) rfl
  have on : decide ((s.loopsNow p).length = 3) = true := decide_eq_true full
  unfold State.loopDiscard
  dsimp only
  rw [show pushOldest 3 (pruned s.clock 10000 (s.port p).loopTimes) s.clock = s.loopsNow p from rfl, test, on, off]
  simp only [Bool.not_false, Bool.and_self, if_true, State.loopEntered, onPort_onPort, Bool.or_true]

theorem loopDiscard_of_short {s : State} {p : Port} (short : (s.loopsNow p).length ≠ 3 ∨ (s.port p).lineLoop = true) :
    s.loopDiscard p = s.loopEntered p := by
  have test := full_iff 3 s.clock (s.port p).loopTimes (s.loopsNow p) rfl
  unfold State.loopDiscard
  dsimp only
  rw [show pushOldest 3 (pruned s.clock 10000 (s.port p).loopTimes) s.clock = s.loopsNow p from rfl, test]
  rcases short with short | on
  · rw [decide_eq_false short]
    simp only [Bool.false_and, Bool.or_false, Bool.false_eq_true, if_false]
    rfl
  · rw [on, Bool.not_true, Bool.and_false, if_neg Bool.false_ne_true]
    exact onPort_congr (by rw [on, Bool.true_or])

/-- A loop discard is the discard entered, and perhaps the line-loop condition. -/
theorem loopDiscard_port (s : State) (p : Port) : ∃ b, (s.loopDiscard p).port p =
    { (s.loopEntered p).port p with lineLoop := b } := by
  by_cases full : (s.loopsNow p).length = 3 ∧ (s.port p).lineLoop = false
  · exact ⟨true, by rw [loopDiscard_of_full full.1 full.2, port_raise, port_onPort]⟩
  · refine ⟨_, congrArg (fun u => State.port u p) (loopDiscard_of_short ?_)⟩
    rwa [not_and_or, Bool.not_eq_false] at full

/-! ### What a discard changes besides its port -/

/-- A port's record and the Fault Table alone may differ. -/
def PortEvent (s t : State) : Prop := t = { s with lif := t.lif, faults := t.faults }

theorem onPort_event (s : State) (p : Port) (f : PortRec → PortRec) : PortEvent s (s.onPort p f) := by cases p <;> rfl

theorem PortEvent.raise {s t : State} (h : PortEvent s t) (c : FaultCode) (src : FaultSource) (cls : FaultClass) :
    PortEvent s (t.raise c src cls) := by
  unfold PortEvent at h ⊢
  rw [h]
  rfl

theorem PortEvent.trans {s t u : State} (h : PortEvent s t) (k : PortEvent t u) : PortEvent s u := by
  unfold PortEvent at h k ⊢
  exact k.trans (by rw [h])

theorem formatFailure_event (s : State) (p : Port) : PortEvent s (s.formatFailure p) := by
  unfold State.formatFailure
  dsimp only
  split
  · exact (onPort_event s p _).raise _ _ _
  · exact onPort_event s p _

theorem loopDiscard_event (s : State) (p : Port) : PortEvent s (s.loopDiscard p) := by
  unfold State.loopDiscard
  dsimp only
  split
  · exact (onPort_event s p _).raise _ _ _
  · exact onPort_event s p _

/-- After a port's event and the end of a step, the line, the Fault Table and the status builder alone may differ. -/
theorem PortEvent.finish {s u : State} (h : PortEvent s u) :
    u.finish = { s with lif := u.finish.lif, faults := u.finish.faults, builder := u.finish.builder } := by
  have ended := (finish_frame u).1.frame.2.2
  unfold PortEvent at h
  exact ended.trans (by rw [h])

/-! ### A telegram that has passed check 1 (R28, R29, R33) -/

/-- The telegram counted, and the line activity that it is. -/
def State.arrived (s : State) (p : Port) : State := s.onPort p fun r =>
  { r with lastActivity := s.clock, state := if r.state = .down then .checking else r.state,
           checkStart := if r.state = .down then s.clock else r.checkStart,
           counters := { r.counters with received := up16 r.counters.received } }

theorem count_activity (s : State) (p : Port) :
    (s.count p fun c => { c with received := up16 c.received }).activity p = s.arrived p := by
  by_cases down : (s.port p).state = .down
  · rw [activity_of_down (by simpa using down), State.count, onPort_onPort, clock_onPort]
    exact onPort_congr (by simp only [down, if_true])
  · rw [activity_of_up (by simpa using down), State.count, onPort_onPort, clock_onPort]
    exact onPort_congr (by simp only [down, if_false])

theorem arrived_loops (s : State) (p : Port) (src : Byte) : (s.arrived p).loops src = s.loops src := by cases p <;> rfl

theorem accept_of_loop {s : State} {x : Telegram} (loop : s.loops x.src = true) (p : Port) :
    s.accept p x = (s.arrived p).loopDiscard p := by
  simp only [State.accept, count_activity, arrived_loops, loop, if_true]

theorem accept_of_active {s : State} {x : Telegram} {p : Port} (free : s.loops x.src = false)
    (active : (s.port p).state = .active) : s.accept p x = (s.arrived p).passOn p x := by
  simp only [State.accept, count_activity, arrived_loops, free, active, decide_true, if_true, Bool.false_eq_true, if_false]

theorem accept_of_inactive {s : State} {x : Telegram} {p : Port} (free : s.loops x.src = false)
    (inactive : (s.port p).state ≠ .active) : s.accept p x =
      (s.arrived p).count p fun c => { c with checking := up16 c.checking } := by
  simp only [State.accept, count_activity, arrived_loops, free, inactive, decide_false, Bool.false_eq_true, if_false]

theorem opTelegram_of_isolated {p : Port} {s : State} (h : (s.port p).state = .isolated) (bytes : List Byte) (us : Nat) :
    opTelegram p bytes us s = s := if_pos h

theorem opTelegram_of_error {p : Port} {s : State} {bytes : List Byte} (live : (s.port p).state ≠ .isolated)
    (error : Telegram.check bytes = none) (us : Nat) :
    opTelegram p bytes us s = (s.atMicros us).formatFailure p := by simp only [opTelegram, live, if_false, error]

theorem opTelegram_of_check {p : Port} {s : State} {bytes : List Byte} {x : Telegram} (live : (s.port p).state ≠ .isolated)
    (check : Telegram.check bytes = some x) (us : Nat) :
    opTelegram p bytes us s = (s.atMicros us).accept p x := by simp only [opTelegram, live, if_false, check]

theorem exec_telegram {p : Port} {s u : State} {bytes : List Byte} {us : Nat} (h : opTelegram p bytes us s = u) :
    exec (.telegramReceived p bytes us) s = .next u.settle := congrArg (fun v => Host.Outcome.next (State.settle v)) h

/-- The source of a telegram that fails check 2 (R35). -/
theorem loops_iff (s : State) (src : Byte) : s.loops src = true ↔
    (∃ e ∈ s.dpTable, e.source = .head ∧ e.address = src) ∨ s.lif.station = some src := by
  simp [State.loops, or_comm]

/-- A check-1 failure while no activation waits, at the end of its step. -/
theorem error_reached {p : Port} {s : State} {bytes : List Byte} (live : (s.port p).state ≠ .isolated) (idle : NoActivation s)
    (error : Telegram.check bytes = none) (us : Nat) : Reaches (.telegramReceived p bytes us) s fun t =>
      (t.port p).counters.errors = min 65535 ((s.port p).counters.errors + 1) ∧
      (t.port p).errorTimes.getLast? = some s.clock ∧ (t.port p).lastActivity = (s.port p).lastActivity ∧
      (t.port p).state = (s.port p).state ∧
      t = { s with us := max s.us us, lif := t.lif, faults := t.faults, builder := t.builder } := by
  have op := opTelegram_of_error live error us
  have device : DeviceOnly s (opTelegram p bytes us s) := by
    rw [op]
    exact DeviceOnly.trans (t := s.atMicros us) ⟨rfl, rfl, rfl, rfl⟩ (formatFailure_line _ p).device
  refine ⟨_, completes_of_device device idle, ?_⟩
  rw [op]
  obtain ⟨ended, -⟩ := finish_frame ((s.atMicros us).formatFailure p)
  obtain ⟨b, port⟩ := formatFailure_port (s.atMicros us) p
  rw [State.errorEntered, port_onPort, port_atMicros] at port
  have counters := ended.counters p
  have record := ended.port p
  rw [port] at counters record
  refine ⟨counters.keeps.2.1, ?_, ?_, ?_, (formatFailure_event (s.atMicros us) p).finish⟩
  · rw [record]; exact getLast?_pushOldest _ _ _
  · rw [record]
  · rw [record]

/-- A loop discard while no activation waits, at the end of its step. -/
theorem loop_reached {p : Port} {s : State} {bytes : List Byte} {x : Telegram} (live : (s.port p).state ≠ .isolated)
    (idle : NoActivation s) (check : Telegram.check bytes = some x) (loop : s.loops x.src = true) (us : Nat) :
    Reaches (.telegramReceived p bytes us) s fun t =>
      (t.port p).counters.loops = min 65535 ((s.port p).counters.loops + 1) ∧
      (t.port p).counters.received = min 65535 ((s.port p).counters.received + 1) ∧
      (t.port p).loopTimes.getLast? = some s.clock ∧ (t.port p).lastActivity = s.clock ∧
      t = { s with us := max s.us us, lif := t.lif, faults := t.faults, builder := t.builder } := by
  have op : opTelegram p bytes us s = ((s.atMicros us).arrived p).loopDiscard p :=
    (opTelegram_of_check live check us).trans (accept_of_loop (s := s.atMicros us) loop p)
  have device : DeviceOnly s (opTelegram p bytes us s) := by
    rw [op]
    exact DeviceOnly.trans (t := s.atMicros us) ⟨rfl, rfl, rfl, rfl⟩
      ((onPort_line _ p _).trans (loopDiscard_line _ p)).device
  refine ⟨_, completes_of_device device idle, ?_⟩
  rw [op]
  obtain ⟨ended, -⟩ := finish_frame (((s.atMicros us).arrived p).loopDiscard p)
  obtain ⟨b, port⟩ := loopDiscard_port ((s.atMicros us).arrived p) p
  rw [State.loopEntered, port_onPort] at port
  have arrived : ((s.atMicros us).arrived p).port p = _ := port_onPort (s.atMicros us) p _
  rw [port_atMicros] at arrived
  have counters := ended.counters p
  have record := ended.port p
  rw [port, arrived] at counters record
  refine ⟨counters.keeps.2.2, counters.keeps.1, ?_, ?_,
    ((onPort_event (s.atMicros us) p _).trans (loopDiscard_event _ p)).finish⟩
  · rw [record]
    exact (getLast?_pushOldest _ _ _).trans (congrArg some (clock_onPort _ p _))
  · rw [record]
    rfl

/-- Settles O28, each clause by the branch of the receiver that it names. -/
theorem telegramChecksDiscard : Obligations.TelegramChecksDiscard := by
  intro p bytes us s
  refine ⟨fun isolated => exec_telegram (opTelegram_of_isolated isolated bytes us), fun live idle =>
    ⟨fun error => error_reached live idle error us, fun x check => ⟨fun own =>
      loop_reached live idle check ((loops_iff s x.src).2 (.inr own)) us, fun free low => ?_⟩⟩,
    fun live kept times u => ⟨fun hkept short htimes error hu => ?_, fun x check loop hkept short htimes hu => ?_⟩⟩
  · have inactive : ((s.atMicros us).port p).state ≠ .active := by rcases low with h | h <;> simp [h]
    have op : opTelegram p bytes us s = _ :=
      (opTelegram_of_check live check us).trans (accept_of_inactive (s := s.atMicros us) free inactive)
    have device := ((onPort_line (s.atMicros us) p _).trans (count_line ((s.atMicros us).arrived p) p
      fun c => { c with checking := up16 c.checking })).device
    rw [exec_telegram op, settle_of_idle (by rw [device.2.2.2]; exact idle)]
    refine congrArg (fun v => Host.Outcome.next (State.finish v)) ?_
    rw [State.arrived, State.count, onPort_onPort]
    refine onPort_congr ?_
    rw [port_atMicros]
    rcases low with h | h <;> simp only [h] <;> rfl
  · have entered : (s.atMicros us).errorEntered p = u := by
      rw [hu, htimes, hkept, State.errorEntered, State.errorsNow, port_atMicros, pruned_eq_filter,
        pushOldest_of_le (hkept ▸ short)]
      rfl
    have now : (s.atMicros us).errorsNow p = times := by
      rw [htimes, hkept, State.errorsNow, port_atMicros, pruned_eq_filter, pushOldest_of_le (hkept ▸ short)]
      rfl
    rw [← entered, ← now, ← port_atMicros s us p]
    exact ⟨fun full off => exec_telegram ((opTelegram_of_error live error us).trans (formatFailure_of_full full off)),
      fun short => exec_telegram ((opTelegram_of_error live error us).trans
        (formatFailure_of_short (short.imp_left Nat.ne_of_lt)))⟩
  · have entered : ((s.atMicros us).arrived p).loopEntered p = u := by
      rw [hu, htimes, hkept, State.arrived, State.loopEntered, State.loopsNow, onPort_onPort, port_onPort, port_atMicros,
        pruned_eq_filter, clock_onPort, pushOldest_of_le (hkept ▸ short)]
      rfl
    have now : ((s.atMicros us).arrived p).loopsNow p = times := by
      rw [htimes, hkept, State.arrived, State.loopsNow, port_onPort, port_atMicros, pruned_eq_filter, clock_onPort,
        pushOldest_of_le (hkept ▸ short)]
      rfl
    have same : (((s.atMicros us).arrived p).port p).lineLoop = (s.port p).lineLoop := by
      rw [State.arrived, port_onPort, port_atMicros]
    have op := (opTelegram_of_check live check us).trans
      (accept_of_loop (s := s.atMicros us) ((loops_iff s x.src).2 loop) p)
    rw [← entered, ← now, ← same]
    exact ⟨fun full off => exec_telegram (op.trans (loopDiscard_of_full full off)), fun short =>
      exec_telegram (op.trans (loopDiscard_of_short (short.imp_left Nat.ne_of_lt)))⟩

end Sys2Proof.Machine

namespace Sys2Proof.Machine

open Sys2Proof

/-! ### The decoder of COMMANDs (R192) -/

theorem commandReader_eq_none {n : Nat} (h : n = 0 ∨ 23 < n) : commandReader n = none := by
  unfold commandReader
  split
  case h_24 => rfl
  all_goals omega

theorem args0_of_length {args : List Byte} (h : args.length ≠ 0) (c : BoxCommand) : args0 c args = none := by
  unfold args0
  split
  · exact absurd rfl h
  · rfl

theorem args2_of_length {args : List Byte} (h : args.length ≠ 2) (f : Byte → Byte → Option BoxCommand) :
    args2 f args = none := by
  unfold args2
  split
  · exact absurd rfl h
  · rfl

theorem activateCommand_of_length {args : List Byte} (h : args.length ≠ 3) : activateCommand args = none := by
  unfold activateCommand
  split
  · exact absurd rfl h
  · rfl

/-- The reader of a name code refuses arguments of another length than the table's; PLAN BLOCK takes any. -/
theorem read_of_length {name n : Nat} (row : (name, n) ∈ [(1, 2), (2, 0), (3, 0), (4, 2), (5, 2), (6, 2), (7, 0), (8, 0), (9, 0),
      (10, 0), (11, 0), (12, 0), (13, 0), (14, 0), (15, 2), (17, 0), (18, 3), (19, 0), (20, 0), (21, 0), (22, 0), (23, 2)])
    {args : List Byte} (h : args.length ≠ n) : ∃ read, commandReader name = some read ∧ read args = none := by
  unfold commandReader
  split
  case h_16 => simp at row
  case h_24 => simp_all
  case h_18 =>
    have len : n = 3 := by simpa using row
    exact ⟨_, rfl, activateCommand_of_length (len ▸ h)⟩
  case h_1 | h_4 | h_5 | h_6 | h_15 | h_23 =>
    have len : n = 2 := by simpa using row
    exact ⟨_, rfl, args2_of_length (len ▸ h) _⟩
  all_goals
    have len : n = 0 := by simpa using row
    exact ⟨_, rfl, args0_of_length (len ▸ h) _⟩

theorem decodeAndRun_of_unknown {name : Byte} (h : commandReader name.toNat = none) (tag : Byte) (args : List Byte) (s : State) :
    decodeAndRun (name :: tag :: args) s = s.reply 0 tag .unknown .none := by simp only [decodeAndRun, h]

theorem decodeAndRun_of_refused {name : Byte} {args : List Byte} {read : List Byte → Option BoxCommand}
    (h : commandReader name.toNat = some read) (refused : read args = none) (tag : Byte) (s : State) :
    decodeAndRun (name :: tag :: args) s = s.reply 0 tag .refusedRange .none := by simp only [decodeAndRun, h, refused]

theorem resetCommand_of_range {kind index : Byte} (h : 2 < kind.toNat ∨ (kind = 0 ∧ 11 < index.toNat) ∨
    (kind = 1 ∧ 3 < index.toNat) ∨ (kind = 2 ∧ 7 < index.toNat)) : resetCommand kind index = none := by
  rcases h with big | ⟨rfl, out⟩ | ⟨rfl, out⟩ | ⟨rfl, out⟩
  · unfold resetCommand
    split
    case h_4 => rfl
    all_goals omega
  · exact if_neg (Nat.not_le.2 out)
  · exact if_neg (Nat.not_le.2 out)
  · exact if_neg (Nat.not_le.2 out)

/-- The number that two bytes write, high byte first. -/
theorem append_toNat (x y : Byte) : (x ++ y).toNat = (BitVec.ofNat 16 (256 * x.toNat + y.toNat)).toNat := by
  have hx := x.isLt
  have hy := y.isLt
  rw [BitVec.toNat_append, BitVec.toNat_ofNat, Nat.mod_eq_of_lt (by omega), ← Nat.shiftLeft_add_eq_or_of_lt hy,
    Nat.shiftLeft_eq]
  omega

theorem decodeAndRun_of_command {name : Byte} {args : List Byte} {read : List Byte → Option BoxCommand} {c : BoxCommand}
    (h : commandReader name.toNat = some read) (taken : read args = some c) (tag : Byte) (s : State) :
    decodeAndRun (name :: tag :: args) s = runCommand tag c s := by simp only [decodeAndRun, h, taken]

/-- PLAN ACTIVATE names the plan id in two bytes, high byte first. -/
theorem exec_planActivate (tag x y z : Byte) (s : State) :
    exec (.planActivate tag (BitVec.ofNat 16 (256 * x.toNat + y.toNat)) z) s =
      .next (decodeAndRun [18, tag, x, y, z] s.hear).settle :=
  congrArg (fun id => Host.Outcome.next (State.settle (cmdPlanActivate tag id z.toNat s.hear))) (append_toNat x y).symm

/-- RESET EQUIPMENT in its range is the row of its kind. -/
theorem decodeAndRun_of_reset {kind index : Byte} {c : BoxCommand} (taken : resetCommand kind index = some c) (tag : Byte)
    (s : State) : decodeAndRun [6, tag, kind, index] s = runCommand tag c s :=
  decodeAndRun_of_command (name := 6) (args := [kind, index]) (read := args2 resetCommand) rfl taken tag s

/-- RESET EQUIPMENT out of its range is REFUSED_RANGE, as its row says too. -/
theorem decodeAndRun_of_reset_range {kind index : Byte} (out : resetCommand kind index = none) (tag : Byte)
    (s : State) : decodeAndRun [6, tag, kind, index] s = s.reply 0 tag .refusedRange .none :=
  decodeAndRun_of_refused (name := 6) (args := [kind, index]) (read := args2 resetCommand) rfl out tag s

theorem cmdResetLamp_eq (tag index : Byte) (s : State) : cmdResetLamp tag index s = decodeAndRun [6, tag, 0, index] s := by
  by_cases range : index.toNat ≤ 11
  · exact (decodeAndRun_of_reset (kind := 0) (index := index) (if_pos range) tag s).symm
  · rw [decodeAndRun_of_reset_range (resetCommand_of_range (.inr (.inl ⟨rfl, Nat.lt_of_not_le range⟩))), cmdResetLamp, lampOf, dif_neg (by omega)]

theorem cmdResetMachine_eq (tag index : Byte) (s : State) :
    cmdResetMachine tag index s = decodeAndRun [6, tag, 1, index] s := by
  by_cases range : index.toNat ≤ 3
  · exact (decodeAndRun_of_reset (kind := 1) (index := index) (if_pos range) tag s).symm
  · rw [decodeAndRun_of_reset_range (resetCommand_of_range (.inr (.inr (.inl ⟨rfl, Nat.lt_of_not_le range⟩)))), cmdResetMachine, dif_neg (by omega)]

theorem cmdResetHead_eq (tag index : Byte) (s : State) : cmdResetHead tag index s = decodeAndRun [6, tag, 2, index] s := by
  by_cases range : index.toNat ≤ 7
  · exact (decodeAndRun_of_reset (kind := 2) (index := index) (if_pos range) tag s).symm
  · rw [decodeAndRun_of_reset_range (resetCommand_of_range (.inr (.inr (.inr ⟨rfl, Nat.lt_of_not_le range⟩)))), cmdResetHead, State.resetHeadOutcome, dif_neg (by omega)]

theorem exec_boxCommand {run : State → State} {body : List Byte} (h : ∀ s, run s = decodeAndRun body s) (s : State) :
    completes (boxCommand run) s = .next (decodeAndRun body s.hear).settle :=
  congrArg (fun u => Host.Outcome.next (State.settle u)) (h s.hear)

/-- Each of the 23 codes with its arguments does what the command's own row does (R192; log 35). -/
theorem exec_command {tag x y z : Byte} {args : List Byte} {c : Instr} {body : List Byte} (h : (c, body) ∈
    [(.ackReport tag x y, [1, tag, x, y]), (.reportsStart tag, [2, tag]), (.reportsStop tag, [3, tag]),
     (.classEnable tag x y, [4, tag, x, y]), (.restoreSection tag x y, [5, tag, x, y]),
     (.resetEquipmentLamp tag x, [6, tag, 0, x]), (.resetEquipmentMachine tag x, [6, tag, 1, x]),
     (.resetEquipmentHead tag x, [6, tag, 2, x]), (.remoteRequest tag, [7, tag]), (.remoteRelease tag, [8, tag]),
     (.remoteClose tag, [9, tag]), (.remoteOpen tag, [10, tag]), (.localRelease tag, [11, tag]),
     (.localWithdraw tag, [12, tag]), (.testRequest tag, [13, tag]), (.testRelease tag, [14, tag]),
     (.testStep tag x y, [15, tag, x, y]), (.planBlock tag args, 16 :: tag :: args), (.planCheck tag, [17, tag]),
     (.planActivate tag (BitVec.ofNat 16 (256 * x.toNat + y.toNat)) z, [18, tag, x, y, z]), (.planCancel tag, [19, tag]),
     (.portIsolate tag, [20, tag]), (.portRestore tag, [21, tag]), (.clearAcked tag, [22, tag]),
     (.read tag x y, [23, tag, x, y])]) (s : State) : exec c s = .next (decodeAndRun body s.hear).settle := by
  simp only [List.mem_cons, List.not_mem_nil, or_false, Prod.mk.injEq] at h
  rcases h with ⟨rfl, rfl⟩ | ⟨rfl, rfl⟩ | ⟨rfl, rfl⟩ | ⟨rfl, rfl⟩ | ⟨rfl, rfl⟩ | ⟨rfl, rfl⟩ | ⟨rfl, rfl⟩ | ⟨rfl, rfl⟩ |
    ⟨rfl, rfl⟩ | ⟨rfl, rfl⟩ | ⟨rfl, rfl⟩ | ⟨rfl, rfl⟩ | ⟨rfl, rfl⟩ | ⟨rfl, rfl⟩ | ⟨rfl, rfl⟩ | ⟨rfl, rfl⟩ | ⟨rfl, rfl⟩ |
    ⟨rfl, rfl⟩ | ⟨rfl, rfl⟩ | ⟨rfl, rfl⟩ | ⟨rfl, rfl⟩ | ⟨rfl, rfl⟩ | ⟨rfl, rfl⟩ | ⟨rfl, rfl⟩ | ⟨rfl, rfl⟩
  case inr.inr.inr.inr.inr.inl => exact exec_boxCommand (cmdResetLamp_eq tag x) s
  case inr.inr.inr.inr.inr.inr.inl => exact exec_boxCommand (cmdResetMachine_eq tag x) s
  case inr.inr.inr.inr.inr.inr.inr.inl => exact exec_boxCommand (cmdResetHead_eq tag x) s
  case inr.inr.inr.inr.inr.inr.inr.inr.inr.inr.inr.inr.inr.inr.inr.inr.inr.inr.inr.inl => exact exec_planActivate tag x y z s
  all_goals rfl

/-! ### A telegram on an ACTIVE port (R33, R36 to R40) -/

/-- The state in which the checks 3 to 5 take a telegram: the telegram counted on a port that stays ACTIVE. -/
theorem arrived_of_active {s : State} {p : Port} (active : (s.port p).state = .active) (us : Nat) :
    (s.atMicros us).arrived p = State.onPort { s with us := max s.us us } p fun r =>
      { r with lastActivity := s.clock,
               counters := { r.counters with received := min 65535 (r.counters.received + 1) } } := by
  refine onPort_congr (s := s.atMicros us) ?_
  rw [port_atMicros, active]
  simp only [reduceCtorEq, if_false]
  rfl

/-- The box heard by the telegram that a state takes. -/
def State.heardBy (u : State) (p : Port) (x : Telegram) : State := if p = .box ∧ x.src = 0 then u.hear else u

theorem lif_heardBy (u : State) (p : Port) (x : Telegram) : (u.heardBy p x).lif = u.lif := by
  unfold State.heardBy
  split <;> rfl

theorem plan_heardBy (u : State) (p : Port) (x : Telegram) : (u.heardBy p x).dpTable = u.dpTable := by
  unfold State.heardBy
  split <;> rfl

theorem clock_heardBy (u : State) (p : Port) (x : Telegram) : (u.heardBy p x).clock = u.clock := by
  unfold State.heardBy
  split <;> rfl

theorem passOn_of_own {u : State} {x : Telegram} (own : u.lif.station = some x.dest) (p : Port) :
    u.passOn p x = (u.heardBy p x).consume p x := by
  have same : (u.heardBy p x).lif.station = some x.dest := (congrArg Lif.station (lif_heardBy u p x)).trans own
  exact if_pos same

theorem passOn_of_count {u : State} {x : Telegram} (other : u.lif.station ≠ some x.dest) (kind : x.kind = kindCount) (p : Port) :
    u.passOn p x = ((u.heardBy p x).relay p x).checkDp p x := by
  have same : (u.heardBy p x).lif.station ≠ some x.dest := fun h =>
    other ((congrArg Lif.station (lif_heardBy u p x)).symm.trans h)
  exact (if_neg same).trans (if_pos kind)

theorem passOn_of_relayed {u : State} {x : Telegram} (other : u.lif.station ≠ some x.dest) (kind : x.kind ≠ kindCount)
    (p : Port) : u.passOn p x = (u.heardBy p x).relay p x := by
  have same : (u.heardBy p x).lif.station ≠ some x.dest := fun h =>
    other ((congrArg Lif.station (lif_heardBy u p x)).symm.trans h)
  exact (if_neg same).trans (if_neg kind)

theorem consume_of_unexpected {x : Telegram} (kind : x.kind ≠ kindCommand) (v : State) (p : Port) :
    v.consume p x = v.count p fun c => { c with unexpected := min 65535 (c.unexpected + 1) } := if_pos kind

theorem consume_of_command {x : Telegram} (kind : x.kind = kindCommand) (src : x.src = 0) (v : State) :
    v.consume .box x = decodeAndRun x.body (v.count .box fun c => { c with consumed := min 65535 (c.consumed + 1) }) :=
  (if_neg (not_not.2 kind)).trans (if_pos ⟨rfl, src⟩)

theorem consume_of_stranger {p : Port} {x : Telegram} (kind : x.kind = kindCommand) (h : ¬(p = .box ∧ x.src = 0)) (v : State) :
    v.consume p x = (v.count p fun c => { c with refusedSource := min 65535 (c.refusedSource + 1) }).reply x.src
      (x.body.getD 1 0) .refusedSource .none := (if_neg (not_not.2 kind)).trans (if_neg h)

/-! ### The relayed copy (R38, R42, R44) -/

theorem hops_toNat (h : Byte) : h.toNat = 15 ↔ h = 15 := by
  rw [← BitVec.toNat_inj]
  rfl

/-- The copy offered to the other port. -/
def State.offerCopy (s : State) : Port → Telegram → State
  | .box, x => s.offerField (s.relayCopy x)
  | .field, x => s.offerBox (relayClass x) (s.relayCopy x)

theorem relay_of_hops {x : Telegram} (h : x.hops = 15) (s : State) (p : Port) :
    s.relay p x = s.count p fun c => { c with overHop := min 65535 (c.overHop + 1) } := if_pos ((hops_toNat _).2 h)

/-- A copy that the other port takes is counted by the port it came in on. -/
theorem relay_of_accepted {s : State} {p : Port} {x : Telegram} (h : x.hops ≠ 15) (accepted : s.relayAccepted p x = true) :
    s.relay p x = (s.offerCopy p x).count p fun c => { c with relayed := min 65535 (c.relayed + 1) } := by
  have below := mt (hops_toNat x.hops).1 h
  cases p
  · exact (if_neg below).trans (if_pos accepted)
  · exact (if_neg below).trans (if_pos accepted)

/-- A copy that the other port does not take is what that port's offer makes of it. -/
theorem relay_of_discarded {s : State} {p : Port} {x : Telegram} (h : x.hops ≠ 15) (discarded : s.relayAccepted p x = false) :
    s.relay p x = s.offerCopy p x := by
  have below := mt (hops_toNat x.hops).1 h
  cases p
  · exact (if_neg below).trans (if_neg (Bool.eq_false_iff.1 discarded))
  · exact (if_neg below).trans (if_neg (Bool.eq_false_iff.1 discarded))

theorem offerField_of_down {s : State} (down : s.lif.field.state ≠ .active) (w : Waiting) :
    s.offerField w = s.count .field fun c => { c with notActive := min 65535 (c.notActive + 1) } := if_pos down

theorem offerField_of_room {s : State} (active : s.lif.field.state = .active) (room : s.lif.qf.length < 32) (w : Waiting) :
    s.offerField w = { s with lif := { s.lif with qf := s.lif.qf ++ [w] } } := (if_neg (not_not.2 active)).trans (if_pos room)

theorem offerField_of_full {s : State} (active : s.lif.field.state = .active) (full : 32 ≤ s.lif.qf.length) (w : Waiting) :
    s.offerField w = s.count .field fun c => { c with full := min 65535 (c.full + 1) } :=
  (if_neg (not_not.2 active)).trans (if_neg (Nat.not_lt.2 full))

theorem fieldAccepts_iff (s : State) : s.fieldAccepts = true ↔ s.lif.field.state = .active ∧ s.lif.qf.length < 32 := by
  rw [State.fieldAccepts, Bool.and_eq_true, decide_eq_true_iff, decide_eq_true_iff, fieldRoom]

theorem boxAccepts_iff (s : State) (cls : Nat) :
    s.boxAccepts cls = true ↔ s.lif.box.state = .active ∧ (s.lif.queue cls).length < 16 := by
  rw [State.boxAccepts, Bool.and_eq_true, decide_eq_true_iff, decide_eq_true_iff, classRoom]

theorem relay_box_of_down {s : State} {x : Telegram} (h : x.hops ≠ 15) (down : s.lif.field.state ≠ .active) :
    s.relay .box x = s.count .field fun c => { c with notActive := min 65535 (c.notActive + 1) } :=
  (relay_of_discarded (p := .box) h (Bool.eq_false_iff.2 fun k => down ((fieldAccepts_iff s).1 k).1)).trans (offerField_of_down down _)

theorem relay_box_of_full {s : State} {x : Telegram} (h : x.hops ≠ 15) (active : s.lif.field.state = .active)
    (full : 32 ≤ s.lif.qf.length) :
    s.relay .box x = s.count .field fun c => { c with full := min 65535 (c.full + 1) } :=
  (relay_of_discarded (p := .box) h (Bool.eq_false_iff.2 fun k => Nat.not_le.2 ((fieldAccepts_iff s).1 k).2 full)).trans
    (offerField_of_full active full _)

theorem relay_box_of_room {s : State} {x : Telegram} (h : x.hops ≠ 15) (active : s.lif.field.state = .active)
    (room : s.lif.qf.length < 32) : s.relay .box x =
      State.count { s with lif := { s.lif with qf := s.lif.qf ++ [s.relayCopy x] } } .box
        fun c => { c with relayed := min 65535 (c.relayed + 1) } :=
  (relay_of_accepted (p := .box) h ((fieldAccepts_iff s).2 ⟨active, room⟩)).trans
    (congrArg (fun u => State.count u .box _) (offerField_of_room active room _))

theorem relay_field_of_down {s : State} {x : Telegram} (h : x.hops ≠ 15) (down : s.lif.box.state ≠ .active) :
    s.relay .field x = s.count .box fun c => { c with notActive := min 65535 (c.notActive + 1) } :=
  (relay_of_discarded (p := .field) h
    (Bool.eq_false_iff.2 fun k => down ((boxAccepts_iff s _).1 k).1)).trans (offerBox_of_down down _ _)

/-- The copy in the box class that its kind names, or discarded for want of room. -/
theorem relay_field_of_active {s : State} {x : Telegram} (h : x.hops ≠ 15) (active : s.lif.box.state = .active) :
    s.relay .field x = if (s.lif.queue (relayClass x)).length < 16 then
      State.count { s with lif := s.lif.setQueue (relayClass x) (s.lif.queue (relayClass x) ++ [s.relayCopy x]) } .field
        fun c => { c with relayed := min 65535 (c.relayed + 1) }
      else s.count .box fun c => { c with full := min 65535 (c.full + 1) } := by
  split
  next room =>
    exact (relay_of_accepted (p := .field) h ((boxAccepts_iff s _).2 ⟨active, room⟩)).trans
      (congrArg (fun u => State.count u .field _) (offerBox_of_room active room _))
  next room =>
    exact (relay_of_discarded (p := .field) h (Bool.eq_false_iff.2 fun k => room ((boxAccepts_iff s _).1 k).2)).trans
      (offerBox_of_full active (Nat.not_lt.1 room) _)

theorem count_frame (s : State) (p : Port) (f : Counters → Counters) : LineFrame s (s.count p f) := by
  cases p
  · exact ⟨rfl, rfl, rfl⟩
  · exact ⟨rfl, rfl, rfl⟩

theorem offerField_frame (s : State) (w : Waiting) : LineFrame s (s.offerField w) := by
  unfold State.offerField
  split
  · exact count_frame s _ _
  · split
    · exact ⟨rfl, rfl, rfl⟩
    · exact count_frame s _ _

/-- A relay is traffic. -/
theorem relay_frame (s : State) (p : Port) (x : Telegram) : LineFrame s (s.relay p x) := by
  have offered : LineFrame s (s.offerCopy p x) := by
    cases p
    · exact offerField_frame s _
    · exact (offerBox_end s _ _).frame
  by_cases hops : x.hops = 15
  · rw [relay_of_hops hops]
    exact count_frame s p _
  · cases accepted : s.relayAccepted p x
    · rw [relay_of_discarded hops accepted]
      exact offered
    · rw [relay_of_accepted hops accepted]
      exact offered.trans (count_frame _ p _)

theorem LineFrame.wrongSide {s t : State} (h : LineFrame s t) : t.lif.wrongSide = s.lif.wrongSide := by
  have traffic := h.1
  unfold TrafficOnly at traffic
  rw [traffic]

theorem LineFrame.clock {s t : State} (h : LineFrame s t) : t.clock = s.clock := by rw [h.2.2]

theorem LineFrame.dpTable {s t : State} (h : LineFrame s t) : t.dpTable = s.dpTable := by rw [h.2.2]; rfl

/-! ### Check 5 (R39, R40) -/

theorem checkDp_of_foreign {u : State} {x : Telegram} (h : lineDpOf u.dpTable x.src = none) (p : Port) : u.checkDp p x = u := by
  simp only [State.checkDp, h]

theorem checkDp_of_entry {u : State} {x : Telegram} {i : Nat} {e : DpEntry} {c : CountBody} (p : Port)
    (dp : lineDpOf u.dpTable x.src = some i) (entry : u.dpTable[i]? = some e) (body : countOf x.body = some c) :
    u.checkDp p x = if e.side = sideOf p then u.deliverLine p i x c else u.wrongSide p i x.src := by
  simp only [State.checkDp, dp, entry, body]

/-- The source taken off the wrong-side set, with DP_WRONG_SIDE cleared, when it stands there. -/
def State.offWrongSide (u : State) (i : Nat) (src : Byte) : State :=
  if src ∈ u.lif.wrongSide then
    State.clear { u with lif := { u.lif with wrongSide := u.lif.wrongSide.filter fun a => a ≠ src } } .dpWrongSide ⟨.dp, i⟩
  else u

theorem clock_offWrongSide (u : State) (i : Nat) (src : Byte) : (u.offWrongSide i src).clock = u.clock := by
  unfold State.offWrongSide
  split <;> rfl

theorem eventTime_eq (arrival : Time) (age : Byte) :
    eventTime arrival age = if age = 255 then none else some (arrival - BitVec.ofNat 32 age.toNat) :=
  if_congr (by rw [← BitVec.toNat_inj]; rfl) rfl rfl

theorem deliverLine_eq (u : State) (p : Port) (i : Nat) (x : Telegram) (c : CountBody) :
    u.deliverLine p i x c =
      ((u.offWrongSide i x.src).count p fun c => { c with delivered := min 65535 (c.delivered + 1) }).deliver i
        ⟨c, u.clock, sideOf p, if x.age = 255 then none else some (u.clock - BitVec.ofNat 32 x.age.toNat)⟩ := by
  rw [← eventTime_eq, ← clock_offWrongSide u i x.src]
  simp only [State.deliverLine, State.offWrongSide, List.contains_iff_mem, dpSource]
  rfl

theorem wrongSide_of_known {u : State} {src : Byte} (h : src ∈ u.lif.wrongSide) (p : Port) (i : Nat) :
    u.wrongSide p i src = u.count p fun c => { c with wrongSide := min 65535 (c.wrongSide + 1) } :=
  if_pos (List.contains_iff_mem.2 (by rw [(count_frame u p _).wrongSide]; exact h))

theorem wrongSide_of_new {u : State} {src : Byte} (h : src ∉ u.lif.wrongSide) (p : Port) (i : Nat) :
    u.wrongSide p i src =
      let w := u.count p fun c => { c with wrongSide := min 65535 (c.wrongSide + 1) }
      State.raise { w with lif := { w.lif with wrongSide := u.lif.wrongSide ++ [src] } } .dpWrongSide ⟨.dp, i⟩ .urgent := by
  have side := (count_frame u p fun c => { c with wrongSide := min 65535 (c.wrongSide + 1) }).wrongSide
  have test : (u.count p fun c => { c with wrongSide := up16 c.wrongSide }).lif.wrongSide.contains src = false :=
    Bool.eq_false_iff.2 fun k => h (side ▸ List.contains_iff_mem.1 k)
  refine (if_neg (Bool.eq_false_iff.1 test)).trans ?_
  rw [← side]
  rfl

/-! ### The start of a transmission (R38, R41) -/

theorem relayedAge_eq (age : Byte) (residence : Nat) :
    relayedAge age residence = if age = 255 then 255 else BitVec.ofNat 8 (min 255 (age.toNat + residence + 1)) := by
  have top : age.toNat = 255 ↔ age = 255 := by rw [← BitVec.toNat_inj]; rfl
  unfold relayedAge
  by_cases h : age = 255
  · rw [if_pos (top.2 h), if_pos h, h]
  · rw [if_neg (mt top.1 h), if_neg h]
    rfl

theorem telegram_hops (w : Waiting) (now : Moment) : (w.telegram now).hops = (w.origin.hopsAge now).1 := rfl

theorem telegram_age (w : Waiting) (now : Moment) : (w.telegram now).age = (w.origin.hopsAge now).2 := rfl

/-- What a telegram carries at the start of its transmission, by its origin. -/
theorem telegram_of_waiting (w : Waiting) (now : Moment) (fast : Bool) : (w.send fast now).frame = frameOf (w.telegram now) ∧
    (w.telegram now).dest = w.dest ∧ (w.telegram now).src = w.src ∧
    (∀ k l, w.payload = .relayed k l → (w.telegram now).kind = k ∧ (w.telegram now).body = l) ∧
    (w.origin = .own ∨ w.origin = .axle none → (w.telegram now).hops = 0 ∧ (w.telegram now).age = 0) ∧
    (∀ m, w.origin = .axle (some m) → (w.telegram now).hops = 0 ∧ (w.telegram now).age =
      if 254 < (microsFrom ⟨m, 0⟩ now + 999) / 1000 then 255
      else BitVec.ofNat 8 ((microsFrom ⟨m, 0⟩ now + 999) / 1000)) ∧
    ∀ h a m, w.origin = .relay h a m → (w.telegram now).hops = h + 1 ∧ (w.telegram now).age =
      if a = 255 then 255 else BitVec.ofNat 8 (min 255 (a.toNat + (microsFrom m now + 999) / 1000 + 1)) := by
  refine ⟨rfl, rfl, rfl, fun k l payload => ?_, ?_, fun m origin => ?_, fun h a m origin => ?_⟩
  · simp only [Waiting.telegram, payload, Payload.bytes, and_self]
  · rintro (origin | origin)
    · rw [telegram_hops, telegram_age, origin]
      exact ⟨rfl, rfl⟩
    · rw [telegram_hops, telegram_age, origin]
      exact ⟨rfl, rfl⟩
  · rw [telegram_hops, telegram_age, origin]
    exact ⟨rfl, rfl⟩
  · rw [telegram_hops, telegram_age, origin]
    exact ⟨rfl, relayedAge_eq a _⟩

/-! ### The whole step -/

/-- The telegram counted, as line activity, on a port that stays ACTIVE. -/
def State.takenOn (s : State) (p : Port) (us : Nat) : State := State.onPort { s with us := max s.us us } p fun r =>
  { r with lastActivity := s.clock, counters := { r.counters with received := min 65535 (r.counters.received + 1) } }

theorem takenOn_station (s : State) (p : Port) (us : Nat) : (s.takenOn p us).lif.station = s.lif.station := by cases p <;> rfl

theorem takenOn_wrongSide (s : State) (p : Port) (us : Nat) : (s.takenOn p us).lif.wrongSide = s.lif.wrongSide := by
  cases p <;> rfl

theorem takenOn_dpTable (s : State) (p : Port) (us : Nat) : (s.takenOn p us).dpTable = s.dpTable := by cases p <;> rfl

theorem takenOn_clock (s : State) (p : Port) (us : Nat) : (s.takenOn p us).clock = s.clock := by cases p <;> rfl

theorem exec_of_active {p : Port} {s : State} {bytes : List Byte} {x : Telegram} (check : Telegram.check bytes = some x)
    (free : s.loops x.src = false) (active : (s.port p).state = .active) (us : Nat) :
    exec (.telegramReceived p bytes us) s = .next ((s.takenOn p us).passOn p x).settle := by
  have live : (s.port p).state ≠ .isolated := by simp [active]
  rw [State.takenOn, ← arrived_of_active active]
  exact exec_telegram ((opTelegram_of_check live check us).trans
    (accept_of_active (s := s.atMicros us) free ((congrArg PortRec.state (port_atMicros s us p)).trans active)))

/-- A COUNT of a line DP: the copy, and then the delivery or the wrong side. -/
theorem passOn_of_lineDp {u : State} {p : Port} {x : Telegram} {i : Nat} {e : DpEntry} {c : CountBody}
    (other : u.lif.station ≠ some x.dest) (kind : x.kind = kindCount)
    (body : countOf x.body = some c) (dp : lineDpOf u.dpTable x.src = some i) (entry : u.dpTable[i]? = some e) :
    u.passOn p x = if e.side = sideOf p then ((u.heardBy p x).relay p x).deliverLine p i x c
      else ((u.heardBy p x).relay p x).wrongSide p i x.src := by
  have table : ((u.heardBy p x).relay p x).dpTable = u.dpTable := by rw [(relay_frame _ p x).dpTable, plan_heardBy]
  rw [passOn_of_count other kind]
  exact checkDp_of_entry p (by rw [table]; exact dp) (by rw [table]; exact entry) body

theorem passOn_of_foreign {u : State} {p : Port} {x : Telegram} (other : u.lif.station ≠ some x.dest)
    (h : x.kind ≠ kindCount ∨ lineDpOf u.dpTable x.src = none) : u.passOn p x = (u.heardBy p x).relay p x := by
  by_cases kind : x.kind = kindCount
  · have foreign : lineDpOf u.dpTable x.src = none := h.resolve_left (not_not.2 kind)
    rw [passOn_of_count other kind]
    refine checkDp_of_foreign ?_ p
    rw [(relay_frame _ p x).dpTable, plan_heardBy]
    exact foreign
  · exact passOn_of_relayed other kind p

/-- What the delivery of a COUNT finds after the relay of its copy. -/
theorem relay_taken (s : State) (p : Port) (x : Telegram) (us : Nat) :
    (((s.takenOn p us).heardBy p x).relay p x).clock = s.clock ∧
    (((s.takenOn p us).heardBy p x).relay p x).lif.wrongSide = s.lif.wrongSide := by
  have frame := relay_frame ((s.takenOn p us).heardBy p x) p x
  refine ⟨?_, ?_⟩
  · rw [frame.clock, clock_heardBy, takenOn_clock]
  · rw [frame.wrongSide, lif_heardBy, takenOn_wrongSide]

/-- Settles O29: the decoder by its table, each telegram by the check that takes it. -/
theorem telegramsAreConsumedOrRelayed : Obligations.TelegramsAreConsumedOrRelayed := by
  refine ⟨fun name tag args s => ⟨fun unnamed => ?_, fun n row length => ?_, fun kind index range => ?_,
    fun x y z c body row => exec_command row s⟩, fun bytes us x s u check free =>
    ⟨fun active hu => ?_, fun active other kind hu => ?_, fun p v active hu hv => ?_,
     fun w hw => ⟨fun hops p => relay_of_hops hops s p, fun hops => ⟨fun down => relay_box_of_down hops down,
       fun active full => relay_box_of_full hops active full,
       fun active room => hw ▸ relay_box_of_room hops active room, fun down => relay_field_of_down hops down,
       fun active kind => ?_, fun active kind => ?_⟩⟩,
     telegram_of_waiting⟩⟩
  · exact decodeAndRun_of_unknown (commandReader_eq_none unnamed) tag args s
  · obtain ⟨read, reads, refused⟩ := read_of_length row length
    exact decodeAndRun_of_refused reads refused tag s
  · exact decodeAndRun_of_reset_range (resetCommand_of_range range) tag s
  · rw [exec_of_active (p := .box) check free active us, show s.takenOn .box us = u from hu.symm]
    refine ⟨fun own kind src => ?_, fun own kind src => ?_⟩
    · have mine : u.lif.station = some x.dest := hu ▸ own
      rw [passOn_of_own mine, consume_of_command kind src, State.heardBy, if_pos ⟨rfl, src⟩]
    · have mine : u.lif.station = some x.dest := hu ▸ own
      have stranger : ¬(Port.box = .box ∧ x.src = 0) := fun h => src h.2
      rw [passOn_of_own mine, consume_of_stranger kind stranger, State.heardBy, if_neg stranger]
  · have away : u.lif.station ≠ some x.dest := hu ▸ other
    have remote : ¬(Port.field = .box ∧ x.src = 0) := by simp
    rw [exec_of_active (p := .field) check free active us, show s.takenOn .field us = u from hu.symm,
      passOn_of_relayed away kind, State.heardBy, if_neg remote]
    refine ⟨fun hops => by rw [relay_of_hops hops], fun hops box room => ?_⟩
    have cls : relayClass x = 1 := if_neg kind
    have still : u.lif.box.state = .active := hu ▸ box
    have free1 : (u.lif.queue (relayClass x)).length < 16 := by rw [hu, cls]; exact room
    rw [relay_field_of_active hops still, if_pos free1, cls, hu]
    rfl
  · obtain ⟨clock, set⟩ := relay_taken s p x us
    have station : u.lif.station = s.lif.station := hu ▸ takenOn_station s p us
    have table : u.dpTable = s.dpTable := hu ▸ takenOn_dpTable s p us
    rw [show s.takenOn p us = u from hu.symm, show u.heardBy p x = v from hv.symm] at clock set
    rw [exec_of_active check free active us, show s.takenOn p us = u from hu.symm, ← station, ← table]
    refine ⟨fun own kind => ?_, fun own kind port => ?_, fun other foreign => ?_, fun i e c other kind body dp entry => ?_⟩
    · rw [passOn_of_own own, consume_of_unexpected kind, show u.heardBy p x = v from hv.symm]
    · subst port
      have remote : ¬(Port.field = .box ∧ x.src = 0) := by simp
      rw [passOn_of_own own, consume_of_stranger kind remote, show u.heardBy .field x = v from hv.symm]
    · rw [passOn_of_foreign other foreign, show u.heardBy p x = v from hv.symm]
    · rw [passOn_of_lineDp other kind body dp entry, show u.heardBy p x = v from hv.symm]
      refine ⟨fun side w hw => ?_, fun side w hw => ?_⟩
      · rw [if_pos side, deliverLine_eq, clock, State.offWrongSide, set, ← hw]
      · rw [if_neg side]
        refine ⟨fun known => ?_, fun new => ?_⟩
        · rw [wrongSide_of_known (set ▸ known), ← hw]
        · rw [wrongSide_of_new (set ▸ new), set, ← hw]
  · rw [relay_field_of_active hops active, hw]
    have cls : relayClass x = 3 := if_pos kind
    rw [cls]
    rfl
  · rw [relay_field_of_active hops active, hw]
    have cls : relayClass x = 1 := if_neg kind
    rw [cls]
    rfl

end Sys2Proof.Machine

namespace Sys2Proof.Machine

open Sys2Proof

/-! ### The laws on queues and times, as they are kept by the Line Interface (R27, R42, R44, R45) -/

/-- The lists of times of both ports keep their lengths (R34, R35). -/
def TimesLaw (l : Lif) : Prop :=
  l.box.errorTimes.length ≤ 21 ∧ l.field.errorTimes.length ≤ 21 ∧ l.box.loopTimes.length ≤ 3 ∧ l.field.loopTimes.length ≤ 3

/-- What keeps the queues in their room keeps the times in theirs. -/
structure LifKept (l m : Lif) : Prop where
  queues : QueuesLaw l → QueuesLaw m
  times : TimesLaw l → TimesLaw m

theorem LifKept.refl (l : Lif) : LifKept l l := ⟨id, id⟩

theorem LifKept.trans {l m n : Lif} (h : LifKept l m) (k : LifKept m n) : LifKept l n :=
  ⟨fun q => k.queues (h.queues q), fun t => k.times (h.times t)⟩

/-- What a port record may become while its queues stand: it does not leave ACTIVE nor, on the box port, become ISOLATED, and
its lists stay in range. -/
structure PortKept (p : Port) (r r' : PortRec) : Prop where
  active : r'.state ≠ .active → r.state ≠ .active
  isolated : p = .box → r'.state = .isolated → r.state = .isolated
  errors : r.errorTimes.length ≤ 21 → r'.errorTimes.length ≤ 21
  loops : r.loopTimes.length ≤ 3 → r'.loopTimes.length ≤ 3

/-- A port record whose state and lists stand. -/
theorem PortKept.of_same {p : Port} {r r' : PortRec} (state : r'.state = r.state) (errors : r'.errorTimes = r.errorTimes)
    (loops : r'.loopTimes = r.loopTimes) : PortKept p r r' :=
  ⟨fun h => state ▸ h, fun _ h => state ▸ h, fun h => errors ▸ h, fun h => loops ▸ h⟩

theorem PortKept.lif {s : State} {p : Port} {f : PortRec → PortRec} (h : PortKept p (s.port p) (f (s.port p))) :
    LifKept s.lif (s.onPort p f).lif := by
  cases p
  · refine ⟨fun ⟨r3, r2, r1, r0, rf, one, box, field, live⟩ => ⟨r3, r2, r1, r0, rf, one, fun down => box (h.active down), field,
      fun isolated => live (h.isolated rfl isolated)⟩, fun ⟨eb, ef, lb, lf⟩ => ⟨h.errors eb, ef, h.loops lb, lf⟩⟩
  · exact ⟨fun ⟨r3, r2, r1, r0, rf, one, box, field, live⟩ => ⟨r3, r2, r1, r0, rf, one, box, fun down => field (h.active down),
      live⟩, fun ⟨eb, ef, lb, lf⟩ => ⟨eb, h.errors ef, lb, h.loops lf⟩⟩

theorem count_kept (s : State) (p : Port) (f : Counters → Counters) : LifKept s.lif (s.count p f).lif :=
  PortKept.lif (p := p) (.of_same rfl rfl rfl)

theorem activity_kept (s : State) (p : Port) : LifKept s.lif (s.activity p).lif := by
  refine PortKept.lif (p := p) ?_
  split
  next down => exact ⟨fun _ => by simp [down], fun _ h => by simp at h, id, id⟩
  next => exact .of_same rfl rfl rfl

theorem invert_kept (s : State) (p : Port) : LifKept s.lif (s.invert p).lif := by
  have inverted : LifKept s.lif (s.onPort p fun r => { r with inverted := !r.inverted }).lif :=
    PortKept.lif (.of_same rfl rfl rfl)
  unfold State.invert
  dsimp only
  split
  · exact inverted
  · exact inverted

theorem opFill_kept (p : Port) (s : State) : LifKept s.lif (opFill p s).lif := by
  unfold opFill
  split
  · exact .refl _
  · exact activity_kept s p

theorem opComplement_kept (p : Port) (s : State) : LifKept s.lif (opComplement p s).lif := by
  unfold opComplement
  split
  · exact invert_kept s p
  · exact (invert_kept s p).trans (PortKept.lif (.of_same rfl rfl rfl))
  · exact .refl _

theorem length_pruned_le (now : Time) (len : Nat) (l : List Time) : (pruned now len l).length ≤ l.length :=
  List.length_filter_le _ _

theorem opErrorExpiry_kept (p : Port) (s : State) : LifKept s.lif (opErrorExpiry p s).lif := by
  have pruned : LifKept s.lif (s.onPort p fun r => { r with errorTimes := pruned s.clock 10000 r.errorTimes }).lif :=
    PortKept.lif ⟨id, fun _ => id, fun h => (length_pruned_le _ _ _).trans h, id⟩
  unfold opErrorExpiry
  dsimp only
  split
  · exact pruned.trans (PortKept.lif (.of_same rfl rfl rfl))
  · exact pruned

theorem opLoopExpiry_kept (p : Port) (s : State) : LifKept s.lif (opLoopExpiry p s).lif := by
  have pruned : LifKept s.lif (s.onPort p fun r => { r with loopTimes := pruned s.clock 10000 r.loopTimes }).lif :=
    PortKept.lif ⟨id, fun _ => id, id, fun h => (length_pruned_le _ _ _).trans h⟩
  unfold opLoopExpiry
  dsimp only
  split
  · exact pruned.trans (PortKept.lif (.of_same rfl rfl rfl))
  · exact pruned

theorem formatFailure_kept (s : State) (p : Port) : LifKept s.lif (s.formatFailure p).lif := by
  unfold State.formatFailure
  dsimp only
  split
  all_goals exact PortKept.lif (p := p) ⟨id, fun _ => id,
    fun h => length_pushOldest_le (by decide) ((length_pruned_le _ _ _).trans h) _, id⟩

theorem loopDiscard_kept (s : State) (p : Port) : LifKept s.lif (s.loopDiscard p).lif := by
  unfold State.loopDiscard
  dsimp only
  split
  all_goals exact PortKept.lif (p := p) ⟨id, fun _ => id, id,
    fun h => length_pushOldest_le (by decide) ((length_pruned_le _ _ _).trans h) _⟩

theorem opTransmitEnd_kept (p : Port) (s : State) : LifKept s.lif (opTransmitEnd p s).lif := by
  unfold opTransmitEnd
  split
  · exact .refl _
  · split
    · exact PortKept.lif (s := s.atMicros _) (p := p) (.of_same rfl rfl rfl)
    · exact .refl _

theorem restorePort_kept {s : State} (isolated : s.lif.field.state = .isolated) : LifKept s.lif s.restorePort.lif := by
  refine PortKept.lif (s := s) (p := .field) (f := fun r => { r with state := .down }) ⟨fun _ => ?_, nofun, id, id⟩
  show s.lif.field.state ≠ .active
  simp [isolated]

/-! ### Queues that change (R42 to R45) -/

theorem queue_length_le {l : Lif} (h : QueuesLaw l) (cls : Nat) : (l.queue cls).length ≤ 16 := by
  obtain ⟨r3, r2, r1, r0, -⟩ := h
  unfold Lif.queue
  split
  · exact r3
  · exact r2
  · exact r1
  · exact r0

theorem queue_of_down {l : Lif} (h : QueuesLaw l) (down : l.box.state ≠ .active) (cls : Nat) : l.queue cls = [] := by
  obtain ⟨-, -, -, -, -, -, box, -⟩ := h
  obtain ⟨e3, e2, e1, e0⟩ := box down
  unfold Lif.queue
  split
  · exact e3
  · exact e2
  · exact e1
  · exact e0

/-- A box class replaced by another queue in its room, with one STATUS at most in class 3. -/
theorem setQueue_kept {l : Lif} {cls : Nat} {q : List Waiting} (h : QueuesLaw l → q.length ≤ 16 ∧
    (l.box.state ≠ .active → q = []) ∧ (cls = 3 → (q.filter Waiting.isStatus).length ≤ 1)) : LifKept l (l.setQueue cls q) := by
  refine ⟨fun law => ?_, fun law => ?_⟩
  · obtain ⟨room, empty, status⟩ := h law
    obtain ⟨r3, r2, r1, r0, rf, one, box, field, live⟩ := law
    unfold Lif.setQueue
    split
    · exact ⟨room, r2, r1, r0, rf, status rfl, fun down => ⟨empty down, (box down).2⟩, field, live⟩
    · exact ⟨r3, room, r1, r0, rf, one, fun down => ⟨(box down).1, empty down, (box down).2.2⟩, field, live⟩
    · exact ⟨r3, r2, room, r0, rf, one, fun down => ⟨(box down).1, (box down).2.1, empty down, (box down).2.2.2⟩, field, live⟩
    · exact ⟨r3, r2, r1, room, rf, one, fun down => ⟨(box down).1, (box down).2.1, (box down).2.2.1, empty down⟩, field, live⟩
  · obtain ⟨-, box, field⟩ := setQueue_traffic l cls q
    unfold TimesLaw
    rw [box, field]
    exact law

theorem setField_kept {l : Lif} {q : List Waiting} (h : QueuesLaw l → q.length ≤ 32 ∧ (l.field.state ≠ .active → q = [])) :
    LifKept l { l with qf := q } := by
  refine ⟨fun law => ?_, id⟩
  obtain ⟨room, empty⟩ := h law
  obtain ⟨r3, r2, r1, r0, -, one, box, -, live⟩ := law
  exact ⟨r3, r2, r1, r0, room, one, box, empty, live⟩

/-- An offer that adds no second STATUS to class 3 (R42). -/
theorem offerBox_kept {s : State} {cls : Nat} {w : Waiting}
    (one : cls = 3 → w.isStatus = false ∨ s.lif.q3.filter Waiting.isStatus = []) : LifKept s.lif (s.offerBox cls w).lif := by
  by_cases active : s.lif.box.state = .active
  · by_cases room : (s.lif.queue cls).length < 16
    · rw [offerBox_of_room active room]
      refine setQueue_kept fun law => ⟨by simpa using room, fun down => absurd active down, fun top => ?_⟩
      subst top
      obtain ⟨-, -, -, -, -, status, -⟩ := law
      rw [show s.lif.queue 3 = s.lif.q3 from rfl, List.filter_append, List.length_append]
      rcases one rfl with other | none
      · simpa [other] using status
      · rw [none]
        exact (Nat.zero_add _).trans_le (List.length_filter_le _ [w])
    · rw [offerBox_of_full active (Nat.not_lt.1 room)]
      exact count_kept s .box _
  · rw [offerBox_of_down active]
    exact count_kept s .box _

theorem offerField_kept (s : State) (w : Waiting) : LifKept s.lif (s.offerField w).lif := by
  by_cases active : s.lif.field.state = .active
  · by_cases room : s.lif.qf.length < 32
    · rw [offerField_of_room active room]
      exact setField_kept fun _ => ⟨by simpa using room, fun down => absurd active down⟩
    · rw [offerField_of_full active (Nat.not_lt.1 room)]
      exact count_kept s .field _
  · rw [offerField_of_down active]
    exact count_kept s .field _

theorem reply_kept (s : State) (dest tag : Byte) (o : ReplyOutcome) (d : ReplyData) :
    LifKept s.lif (s.reply dest tag o d).lif := by
  unfold State.reply
  split
  · exact .refl _
  · exact offerBox_kept nofun

/-- A STATUS in the place of each one waiting leaves as many (R42). -/
theorem filter_replaceStatus {w : Waiting} (h : w.isStatus = true) (q : List Waiting) :
    ((replaceStatus w q).filter Waiting.isStatus).length = (q.filter Waiting.isStatus).length := by
  have same : Waiting.isStatus ∘ (fun x => if x.isStatus then w else x) = Waiting.isStatus := by
    funext x
    by_cases hx : x.isStatus = true <;> simp [hx, h]
  rw [replaceStatus, List.filter_map, List.length_map, same]

theorem offerStatus_kept {s : State} {w : Waiting} (h : w.isStatus = true) : LifKept s.lif (s.offerStatus w).lif := by
  unfold State.offerStatus
  split
  next waiting =>
    have replaced : LifKept s.lif (s.lif.setQueue 3 (replaceStatus w s.lif.q3)) := setQueue_kept fun law => by
      obtain ⟨r3, -, -, -, -, one, -⟩ := law
      refine ⟨?_, fun down => absurd waiting.1 down, fun _ => (filter_replaceStatus h _).trans_le one⟩
      rw [replaceStatus, List.length_map]
      exact r3
    exact replaced.trans (count_kept { s with lif := s.lif.setQueue 3 (replaceStatus w s.lif.q3) } .box _)
  next none =>
    by_cases active : s.lif.box.state = .active
    · refine offerBox_kept fun _ => .inr (List.filter_eq_nil_iff.2 fun x hx status => none ⟨active, ?_⟩)
      exact List.any_eq_true.2 ⟨x, hx, status⟩
    · rw [offerBox_of_down active]
      exact count_kept s .box _

theorem buildStatus_kept (s : State) : LifKept s.lif s.buildStatus.lif := by
  unfold State.buildStatus
  split
  · exact .refl _
  · split
    · exact offerStatus_kept (s := { s with builder := ⟨some s.statusNow, some s.clock⟩ })
        (w := ownTelegram _ 0 (.status s.statusNow)) rfl
    · exact .refl _

theorem statusIfChanged_kept (s : State) : LifKept s.lif s.statusIfChanged.lif := by
  unfold State.statusIfChanged
  split
  · exact buildStatus_kept s
  · exact .refl _

theorem opStatusPeriod_kept (s : State) : LifKept s.lif (opStatusPeriod s).lif := by
  unfold opStatusPeriod
  split
  · exact buildStatus_kept s
  · exact .refl _

theorem opCheckingComplete_kept (p : Port) (s : State) : LifKept s.lif (opCheckingComplete p s).lif := by
  have entered : LifKept s.lif (s.onPort p fun r => { r with state := .active }).lif :=
    PortKept.lif ⟨fun h => absurd rfl h, nofun, id, id⟩
  unfold opCheckingComplete
  split
  · cases p
    · exact entered.trans (buildStatus_kept ((s.onPort .box fun r => { r with state := .active }).clear .portDown
        (portSource .box)))
    · exact entered
  · exact .refl _

theorem takeReport_kept (s : State) : LifKept s.lif s.takeReport.lif := by
  unfold State.takeReport
  split
  · exact .refl _
  · split
    · split
      · exact .refl _
      next n _ =>
        split
        · exact .refl _
        · exact offerBox_kept (s := { s with faults := s.faults.take s.clock n }) nofun
    · exact .refl _

theorem selectReports_kept (s : State) : LifKept s.lif s.selectReports.lif :=
  (((takeReport_kept s).trans (takeReport_kept _)).trans (takeReport_kept _)).trans (takeReport_kept _)

/-! ### The transmitters take from the head of a queue (R43, R44) -/

theorem spend_kept (l : Lif) (cls : Nat) : LifKept l (l.spend cls) := by
  unfold Lif.spend
  split
  all_goals exact ⟨id, id⟩

theorem sendClass_kept (s : State) (cls : Nat) : LifKept s.lif (s.sendClass cls).lif := by
  unfold State.sendClass
  split
  · exact .refl _
  next w q queue =>
    have taken : LifKept s.lif (s.lif.setQueue cls q) := setQueue_kept fun law => by
      have room := queue_length_le law cls
      rw [queue] at room
      refine ⟨Nat.le_of_succ_le room, fun down => ?_, fun top => ?_⟩
      · exact absurd (queue_of_down law down cls) (by rw [queue]; exact List.cons_ne_nil w q)
      · subst top
        obtain ⟨-, -, -, -, -, one, -⟩ := law
        have sub : (q.filter Waiting.isStatus).Sublist (s.lif.q3.filter Waiting.isStatus) := by
          rw [show s.lif.q3 = w :: q from queue]
          exact (List.sublist_cons_self w q).filter _
        exact sub.length_le.trans one
    refine (taken.trans (spend_kept _ cls)).trans ?_
    exact ⟨id, id⟩

theorem startBox_kept (s : State) : LifKept s.lif s.startBox.lif := by
  unfold State.startBox
  split
  · split
    · exact .refl _
    next c t choice =>
      have round : LifKept s.lif t.lif := by
        rcases chooseClass_cases choice with rfl | rfl
        · exact .refl _
        · exact ⟨id, id⟩
      exact round.trans (sendClass_kept t c)
  · exact .refl _

theorem startField_kept (s : State) : LifKept s.lif s.startField.lif := by
  unfold State.startField
  split
  next idle =>
    split
    · exact .refl _
    next w q queue =>
      have taken : LifKept s.lif { s.lif with qf := q } := setField_kept fun law => by
        obtain ⟨-, -, -, -, room, -⟩ := law
        rw [queue] at room
        exact ⟨Nat.le_of_succ_le room, fun down => absurd idle.1 down⟩
      exact taken.trans ⟨id, id⟩
  · exact .refl _

theorem finish_kept (s : State) : LifKept s.lif s.finish.lif :=
  (((selectReports_kept s).trans (statusIfChanged_kept _)).trans
    ((startBox_kept _).trans (startField_kept _))).trans (selectReports_kept _)

/-! ### Queues that are emptied (R28, R31, R45) -/

/-- A port that leaves ACTIVE with its queues emptied. -/
theorem emptied_kept (s : State) (p : Port) (state : PortState) (h : p = .box → state ≠ .isolated) :
    LifKept s.lif ((s.onPort p fun r => { r with state := state }).emptyQueues p).lif := by
  cases p
  · exact ⟨fun ⟨_, _, _, _, rf, _, _, field, _⟩ =>
      ⟨Nat.zero_le _, Nat.zero_le _, Nat.zero_le _, Nat.zero_le _, rf, Nat.zero_le _, fun _ => ⟨rfl, rfl, rfl, rfl⟩, field, h rfl⟩,
      id⟩
  · exact ⟨fun ⟨r3, r2, r1, r0, _, one, box, _, live⟩ => ⟨r3, r2, r1, r0, Nat.zero_le _, one, box, fun _ => rfl, live⟩, id⟩

theorem enterDown_kept (s : State) (p : Port) : LifKept s.lif (s.enterDown p).lif := by
  have emptied := emptied_kept s p .down fun _ => nofun
  unfold State.enterDown
  cases p
  · dsimp only
    split
    · exact emptied.trans ⟨id, id⟩
    · exact emptied.trans ⟨id, id⟩
  · dsimp only
    split
    · exact emptied
    · exact emptied

theorem opPortTimeout_kept (p : Port) (s : State) : LifKept s.lif (opPortTimeout p s).lif := by
  unfold opPortTimeout
  split
  · exact enterDown_kept s p
  · exact .refl _

theorem isolate_kept (s : State) : LifKept s.lif s.isolate.lif := by
  unfold State.isolate
  cases s.lif.field.sending with
  | none => exact emptied_kept s .field .isolated nofun
  | some x =>
    have stopped : LifKept s.lif ((s.onPort .field fun r => { r with sending := none }).count .field
        fun c => { c with emptied := up16 c.emptied }).lif := PortKept.lif (p := .field)
          (f := fun r => { r with sending := none, counters := { r.counters with emptied := up16 r.counters.emptied } })
          (.of_same rfl rfl rfl)
    exact stopped.trans (emptied_kept _ .field .isolated nofun)

theorem relay_kept (s : State) (p : Port) (x : Telegram) : LifKept s.lif (s.relay p x).lif := by
  have offered : LifKept s.lif (s.offerCopy p x).lif := by
    cases p
    · exact offerField_kept s _
    · exact offerBox_kept fun _ => .inl rfl
  by_cases hops : x.hops = 15
  · rw [relay_of_hops hops]
    exact count_kept s p _
  · cases accepted : s.relayAccepted p x
    · rw [relay_of_discarded hops accepted]
      exact offered
    · rw [relay_of_accepted hops accepted]
      exact offered.trans (count_kept _ p _)

end Sys2Proof.Machine

namespace Sys2Proof.Machine

open Sys2Proof

/-! ### The laws on queues, counters and what the heads owe, together (R42, R44, R53, R66, R72) -/

/-- The axle counters of a record are 12 bits wide (R53, R66). -/
def AxlesInRange (inc dec : Nat) : Prop := inc < 4096 ∧ dec < 4096

/-- The counters of a head and its one-channel list in range (R66, R69). -/
def HeadInRange (r : HeadRec) : Prop := r.inc < 4096 ∧ r.dec < 4096 ∧ r.oneChannel.length ≤ 4

/-- What a step keeps, each law where it held at the beginning (`q`, `c`), and the heads that may owe a COUNT (`W`). -/
structure Laws (q c : Prop) (W : Fin 8 → Prop) (s : State) : Prop where
  queues : q → QueuesLaw s.lif
  times : c → TimesLaw s.lif
  heads : c → ∀ h : Fin 8, HeadInRange s.heads[h]
  dps : c → ∀ r ∈ s.dps, AxlesInRange r.inc r.dec
  held : ∀ h : Fin 8, s.named h = true → s.heads[h].owed = true → W h

theorem countersLaw_iff (s : State) : CountersLaw s ↔ TimesLaw s.lif ∧ (∀ h : Fin 8, HeadInRange s.heads[h]) ∧
    ∀ r ∈ s.dps, AxlesInRange r.inc r.dec := by
  unfold CountersLaw TimesLaw HeadInRange AxlesInRange
  tauto

theorem named_congr {s t : State} (h : t.store = s.store) (k : Fin 8) : t.named k = s.named k := by
  simp only [State.named, State.dpTable, par_congr h]

section Laws

variable {q c : Prop} {W V : Fin 8 → Prop} {s t : State}

theorem Laws.mono (k : Laws q c W s) (h : ∀ i, W i → V i) : Laws q c V s :=
  ⟨k.queues, k.times, k.heads, k.dps, fun i named owed => h i (k.held i named owed)⟩

/-- A change of the line, the heads and the DP records standing. -/
theorem Laws.line (k : Laws q c W s) (only : LineOnly s t) (lif : LifKept s.lif t.lif) : Laws q c W t := by
  obtain ⟨-, dps, heads, -⟩ := only.keeps
  have store := only.device.2.2.2
  refine ⟨fun hq => lif.queues (k.queues hq), fun hc => lif.times (k.times hc), fun hc => ?_, fun hc => ?_, fun h => ?_⟩
  · rw [heads]; exact k.heads hc
  · rw [dps]; exact k.dps hc
  · rw [heads, named_congr store]; exact k.held h

/-- A change of sections, demands, control and faults alone. -/
theorem Laws.track (k : Laws q c W s) (only : TrackOnly s t) : Laws q c W t := by
  obtain ⟨f, a, b, l, m, d, x, -, rfl⟩ := only
  exact ⟨k.queues, k.times, k.heads, k.dps, k.held⟩

theorem Laws.control (k : Laws q c W s) (only : ControlOnly s t) : Laws q c W t := k.track only.track

theorem mem_modifyAt {α : Type} {l : List α} {i : Nat} {f : α → α} {x : α} (h : x ∈ modifyAt l i f) :
    x ∈ l ∨ ∃ y ∈ l, x = f y := by
  induction l generalizing i with
  | nil => exact .inl h
  | cons z l ih =>
    cases i with
    | zero =>
      rcases List.mem_cons.1 h with first | rest
      · exact .inr ⟨z, List.mem_cons_self, first⟩
      · exact .inl (List.mem_cons_of_mem z rest)
    | succ n =>
      rcases List.mem_cons.1 h with first | rest
      · exact .inl (first ▸ List.mem_cons_self)
      · exact (ih rest).imp (List.mem_cons_of_mem z) fun ⟨y, hy, e⟩ => ⟨y, List.mem_cons_of_mem z hy, e⟩

/-- A DP record replaced by one whose counters are in range. -/
theorem Laws.setDp (k : Laws q c W s) (i : Nat) {r : DpRec} (range : c → AxlesInRange r.inc r.dec) :
    Laws q c W (s.setDp i r) := by
  refine ⟨k.queues, k.times, k.heads, fun hc x hx => ?_, k.held⟩
  rcases mem_modifyAt hx with old | ⟨y, -, rfl⟩
  · exact k.dps hc x old
  · exact range hc

theorem heads_onHead_same (s : State) (i : Fin 8) (f : HeadRec → HeadRec) : (s.onHead i f).heads[i] = f s.heads[i] := by
  simp [State.onHead]

theorem heads_onHead_other (s : State) {i k : Fin 8} (h : k ≠ i) (f : HeadRec → HeadRec) :
    (s.onHead i f).heads[k] = s.heads[k] := by
  have apart : i.val ≠ k.val := fun e => h (Fin.ext e.symm)
  simp [State.onHead, Vector.getElem_set_ne, apart]

/-- A head record whose counters stay in range; it may owe a COUNT where `V` says so. -/
theorem Laws.onHead (k : Laws q c W s) {i : Fin 8} {f : HeadRec → HeadRec} (others : ∀ h, h ≠ i → W h → V h)
    (range : HeadInRange s.heads[i] → HeadInRange (f s.heads[i]))
    (owed : (f s.heads[i]).owed = true → (s.heads[i].owed = true → W i) → V i) : Laws q c V (s.onHead i f) := by
  refine ⟨k.queues, k.times, fun hc h => ?_, k.dps, fun h named owes => ?_⟩
  · by_cases same : h = i
    · subst same
      rw [heads_onHead_same]
      exact range (k.heads hc h)
    · rw [heads_onHead_other s same]
      exact k.heads hc h
  · by_cases same : h = i
    · subst same
      rw [heads_onHead_same] at owes
      exact owed owes (k.held h named)
    · rw [heads_onHead_other s same] at owes
      exact others h same (k.held h named owes)

/-- A change of a head record that its COUNTs do not carry. -/
theorem Laws.quiet (k : Laws q c W s) (i : Fin 8) {f : HeadRec → HeadRec}
    (range : HeadInRange s.heads[i] → HeadInRange (f s.heads[i])) (owed : (f s.heads[i]).owed = s.heads[i].owed) :
    Laws q c W (s.onHead i f) :=
  k.onHead (fun _ _ => id) range fun owes may => may (owed ▸ owes)

/-- A head that may owe a COUNT and owes none. -/
theorem Laws.clear (k : Laws q c (fun h => W h ∨ h = i) s) (o : s.heads[i].owed = false) : Laws q c W s :=
  ⟨k.queues, k.times, k.heads, k.dps, fun h named owes => (k.held h named owes).resolve_right fun same => by
    subst same
    rw [o] at owes
    exact Bool.false_ne_true owes⟩

/-! ### Detection (R53 to R65) -/

theorem Laws.clearSilent (k : Laws q c W s) (i : Nat) (was : DpState) : Laws q c W (s.clearSilent i was) := by
  unfold State.clearSilent
  split
  · exact k.control (clear_only s _ _)
  · exact k

theorem Laws.dpFailed (k : Laws q c W s) (i : Nat) (was : DpState) {r : DpRec} (range : c → AxlesInRange r.inc r.dec) :
    Laws q c W (s.dpFailed i was r) := by
  have set := k.setDp i (r := { r with state := .failed }) range
  unfold State.dpFailed
  dsimp only
  split
  · exact set
  · exact ((set.track (disturbDp_only _ i _)).control (raise_only _ _ _ _)).clearSilent i was

theorem Laws.dpBaseline (k : Laws q c W s) (i : Nat) {d : Delivery} (was : DpState) (r : DpRec)
    (body : c → AxlesInRange d.body.inc d.body.dec) : Laws q c W (s.dpBaseline i d was r) := by
  unfold State.dpBaseline
  dsimp only
  split
  · exact k.dpFailed i was body
  · exact ((k.setDp i body).clearSilent i was).control (clear_only _ _ _)

section Told

variable {told : State → State} (keeps : ∀ t, Laws q c W t → Laws q c W (told t))
include keeps

theorem Laws.handOnBy (k : Laws q c W s) (i a b : Nat) (ev : Option Time) : Laws q c W (s.handOnBy told i a b ev) := by
  have sects := keeps _ (k.track (countDelta_only s i a b))
  have pass {t : State} (k : Laws q c W t) (dir : CountDir) : Laws q c W (told (t.handPassage s.dpTable i dir ev)) := by
    refine keeps _ ?_
    unfold State.handPassage
    split
    · exact k
    · exact k.track (passage_only t _ dir ev)
  unfold State.handOnBy
  dsimp only
  split <;> split
  · exact sects
  · exact pass sects _
  · exact pass sects _
  · exact pass (pass sects _) _

theorem Laws.dpPlausibleBy (k : Laws q c W s) (i : Nat) {d : Delivery} (timed renumbered : Bool) (a b : Nat) (r : DpRec)
    (body : c → AxlesInRange d.body.inc d.body.dec) : Laws q c W (s.dpPlausibleBy told i d timed renumbered a b r) := by
  unfold State.dpPlausibleBy
  dsimp only
  split
  · exact k.setDp i body
  · exact Laws.handOnBy keeps (k.setDp i body) i a b _

theorem Laws.dpCountBy (k : Laws q c W s) (i : Nat) {d : Delivery} (timed handled : Bool) (r : DpRec)
    (body : c → AxlesInRange d.body.inc d.body.dec) : Laws q c W (s.dpCountBy told i d timed handled r) := by
  unfold State.dpCountBy
  dsimp only
  split
  · exact ((k.setDp i body).track (disturbDp_only _ i _)).control (momentary_only _ _ _ _)
  · split
    · exact (k.setDp i body).track (disturbDp_only _ i _)
    · exact Laws.dpPlausibleBy keeps k i timed _ _ _ _ body

theorem Laws.deliverBy (k : Laws q c W s) (i : Nat) {d : Delivery} (body : c → AxlesInRange d.body.inc d.body.dec) :
    Laws q c W (s.deliverBy told i d) := by
  unfold State.deliverBy
  split
  · exact k
  next r0 get =>
    have range : c → AxlesInRange r0.inc r0.dec := fun hc => k.dps hc r0 (List.mem_of_getElem? get)
    have live : Laws q c W (s.setDp i { r0.accepted d s.silence with state := .live }) := k.setDp i range
    have healthy (i : Nat) (u : State) : ControlOnly u (u.clear .dpHeadFailed (dpSource i)) := clear_only u _ _
    split
    · exact k
    · dsimp only
      split
      · exact k.dpBaseline i _ _ body
      · split
        · exact k.dpFailed i _ body
        · split
          · exact Laws.dpCountBy keeps (live.control (healthy i _)) i _ _ _ body
          · exact Laws.dpCountBy keeps ((live.control (clear_only _ _ _)).control (healthy i _)) i _ _ _ body
          · exact Laws.dpCountBy keeps k i _ _ _ body

/-- The COUNT of a named head carries what the head owes (R72). -/
theorem Laws.emitBy {i : Fin 8} (k : Laws q c (fun h => W h ∨ h = i) s) : Laws q c W (s.emitBy told i) := by
  unfold State.emitBy
  split
  next unnamed =>
    refine ⟨k.queues, k.times, k.heads, k.dps, fun h named owes => (k.held h named owes).resolve_right fun same => ?_⟩
    rw [same, State.named, unnamed] at named
    exact Bool.false_ne_true named
  next n index =>
    obtain ⟨j, e, rfl, get, -⟩ := indexWhere_eq_some.1 index
    rw [Nat.zero_add]
    split
    next none => exact absurd (get.symm.trans none) nofun
    next e get =>
      have body : c → AxlesInRange s.heads[i].inc s.heads[i].dec := fun hc =>
        ⟨(k.heads hc i).1, (k.heads hc i).2.1⟩
      have carried : Laws q c W (s.onHead i (HeadRec.emitted s.clock)) :=
        k.onHead (fun h other may => may.resolve_right other) id nofun
      have offered := carried.line (offerBox_line _ 3 _) (offerBox_kept (w := ⟨255, e.address,
        .count (s.heads[i].nextBody s.clock), .axle s.heads[i].earliest⟩) fun _ => .inl rfl)
      exact Laws.deliverBy keeps (offered.line (offerField_line _ _) (offerField_kept _ _)) _ body

end Told

theorem Laws.opSilence (k : Laws q c W s) (i : Nat) : Laws q c W (opSilence i s) := by
  unfold Machine.opSilence
  split
  · exact k
  next r get =>
    split
    · have range : c → AxlesInRange r.inc r.dec := fun hc => k.dps hc r (List.mem_of_getElem? get)
      exact ((k.setDp i (r := { r with state := .silent, deadline := none }) range).track
        (disturbDp_only _ i _)).control (raise_only _ _ _ _)
    · exact k

/-- Heads taken one after another, each losing what it may owe where `N` says so. -/
theorem Laws.foldl {N : Fin 8 → Prop} {f : State → Fin 8 → State} {P : State → Prop}
    (step : ∀ (W : Fin 8 → Prop) (s : State) (i : Fin 8), (∀ h, V h → W h) → P s →
      Laws q c (fun h => W h ∨ (N h ∧ h = i)) s → Laws q c W (f s i) ∧ P (f s i))
    (l : List (Fin 8)) {s : State} (p : P s) (k : Laws q c (fun h => V h ∨ (N h ∧ h ∈ l)) s) :
    Laws q c V (l.foldl f s) ∧ P (l.foldl f s) := by
  induction l generalizing s with
  | nil => exact ⟨k.mono fun h may => may.resolve_right fun no => List.not_mem_nil no.2, p⟩
  | cons i l ih =>
    obtain ⟨k, p⟩ := step (fun h => V h ∨ (N h ∧ h ∈ l)) s i (fun h => .inl) p (k.mono fun h may => by
      rcases may with v | ⟨n, m⟩
      · exact .inl (.inl v)
      · exact (List.mem_cons.1 m).elim (fun same => .inr ⟨n, same⟩) fun rest => .inl (.inr ⟨n, rest⟩))
    exact ih p k

end Laws

end Sys2Proof.Machine

namespace Sys2Proof.Machine

open Sys2Proof

section Laws

variable {q c : Prop} {W V : Fin 8 → Prop} {s t : State}

/-! ### The swap (R20 to R23, R40, R66, R72) -/

/-- The fault records and enables are no matter of the laws. -/
theorem Laws.faults (k : Laws q c W s) (f : FaultTable) : Laws q c W { s with faults := f } :=
  k.line (faults_line s f) (.refl _)

theorem carryDp_range {old : Option Plan} {new : Plan} {recs : List DpRec} (h : ∀ r ∈ recs, AxlesInRange r.inc r.dec)
    (now : Time) (e : DpEntry) :
    AxlesInRange (carryDp now old new recs e).inc (carryDp now old new recs e).dec := by
  have fresh : AxlesInRange (DpRec.fresh e.side (after now new.silence)).inc (DpRec.fresh e.side (after now new.silence)).dec :=
    ⟨(by decide : 0 < 4096), (by decide : 0 < 4096)⟩
  unfold carryDp
  dsimp only
  split
  · exact fresh
  next i _ =>
    cases get : recs[i]? with
    | none => exact fresh
    | some r => exact h r (List.mem_of_getElem? get)

theorem dpTable_eq (s : State) : s.dpTable = dpsBefore s.store.plan := by
  unfold State.dpTable State.par dpsBefore
  cases s.store.plan <;> rfl

/-- After the records of a swap only the heads that it newly names may owe. -/
theorem Laws.swapRecords (k : Laws q c (fun _ => False) s) (new : Plan) :
    Laws q c (fun h => newlyNamed s.store.plan new h = true)
      (State.swapRecords { s with store := s.store.swapped new } s.store.plan new) := by
  have head (h : Fin 8) : ∀ r, r = (State.swapRecords { s with store := s.store.swapped new } s.store.plan new).heads[h] →
      (HeadInRange s.heads[h] → HeadInRange r) ∧ r.owed = s.heads[h].owed := by
    rintro r rfl
    simp only [State.swapRecords, State.report, Fin.getElem_fin, Vector.getElem_ofFn]
    split
    · exact ⟨id, rfl⟩
    · exact ⟨id, rfl⟩
  refine ⟨k.queues, k.times, fun hc h => (head h _ rfl).1 (k.heads hc h), fun hc r hr => ?_, fun h named owes => ?_⟩
  · obtain ⟨e, -, rfl⟩ := List.mem_map.1 hr
    exact carryDp_range (k.dps hc) _ e
  · rw [(head h _ rfl).2] at owes
    have old : s.named h = false := Bool.eq_false_iff.2 fun named => k.held h named owes
    have now : (dpOfHead new.dps h).isSome = true := named
    rw [State.named, dpTable_eq, Option.isSome_eq_false_iff] at old
    rw [newlyNamed, now, old]
    rfl

theorem Laws.swapEquipment (k : Laws q c W s) (old : Option Plan) (new : Plan) : Laws q c W (s.swapEquipment old new) :=
  (((k.faults _).control (setLights_only _ _)).control (ControlOnly.foldl _ (swapMachine_only old new) _ _)).control
    (momentary_only _ _ _ _)

theorem Laws.swapCrossing (k : Laws q c W s) : Laws q c W s.swapCrossing := by
  have views {t : State} (k : Laws q c W t) (v : CrossingRec) :
      Laws q c W ((State.elect { t with crossing := v }).forceDoubtful.tell.causesChanged) :=
    (((k.control (crossing_only t v)).control (elect_only _)).track (forceDoubtful_only _)).control
      ((tell_only _).trans (causesChanged_only _))
  unfold State.swapCrossing
  dsimp only
  split
  · exact views (k.control ((enterLowerEntry_only s).trans (clear_only _ _ _))) _
  · exact views k _

/-- The first COUNT of each head newly named carries what it may owe. -/
theorem Laws.emitNamed {old : Option Plan} {new : Plan} (k : Laws q c (fun h => newlyNamed old new h = true) s) :
    Laws q c (fun _ => False) (s.emitNamed old new) := by
  refine (Laws.foldl (N := fun h => newlyNamed old new h = true) (P := fun _ => True) (fun W s i _ _ k => ⟨?_, trivial⟩)
    (List.finRange 8) trivial (k.mono fun h n => .inr ⟨n, List.mem_finRange h⟩)).1
  split
  · exact Laws.emitBy (fun _ => id) (k.mono fun h may => may.imp_right And.right)
  next other => exact k.mono fun h may => may.resolve_right fun n => other (n.2 ▸ n.1)

theorem Laws.swap (k : Laws q c (fun _ => False) s) : Laws q c (fun _ => False) s.swap :=
  ((k.swapRecords _).swapEquipment _ _).swapCrossing.emitNamed

/-- What the heads owe carried: no head that the plan names owes a COUNT any longer. -/
theorem Laws.owedCarried (k : Laws q c W s) : Laws q c (fun _ => False) s.owedCarried := by
  refine (Laws.foldl (N := fun _ => True) (P := fun _ => True) (fun W s i _ _ k => ⟨?_, trivial⟩)
    (List.finRange 8) trivial (k.mono fun h _ => .inr ⟨trivial, List.mem_finRange h⟩)).1
  have k := k.mono (V := fun h => W h ∨ h = i) fun h may => may.imp_right And.right
  split
  · exact Laws.emitBy (fun _ => id) k
  next clear => exact k.clear (Bool.eq_false_iff.2 clear)

theorem Laws.swapIfDue (k : Laws q c W s) : Laws q c W s.swapIfDue := by
  unfold State.swapIfDue
  split
  · exact k.owedCarried.swap.mono fun _ => False.elim
  · exact k

/-- The end of a step. -/
theorem Laws.settle (k : Laws q c W s) : Laws q c W s.settle := k.swapIfDue.line (finish_line _) (finish_kept _)

/-! ### The local heads (R66 to R72) -/

theorem Laws.emit {i : Fin 8} (k : Laws q c (fun h => W h ∨ h = i) s) : Laws q c W (s.emit i) :=
  Laws.emitBy (fun _ => Laws.swapIfDue) k

/-- The COUNT goes out, or a further event of the head waits. -/
theorem Laws.carry {i : Fin 8} (k : Laws q c (fun h => W h ∨ h = i) s) (waits : s.headWaits i = true → W i) :
    Laws q c W (s.carry i) := by
  cases owed : s.heads[i].owed with
  | false => rw [carry_of_clear owed]; exact k.clear owed
  | true =>
    cases wait : s.headWaits i with
    | false => rw [carry_of_last owed wait]; exact k.emit
    | true =>
      rw [carry_of_waiting wait]
      exact k.mono fun h may => may.elim id fun same => same ▸ waits wait

theorem Laws.carryNow {i : Fin 8} (k : Laws q c (fun h => W h ∨ h = i) s) : Laws q c W (s.carryNow i) := by
  unfold State.carryNow
  split
  · exact k.emit
  next clear => exact k.clear (Bool.eq_false_iff.2 clear)

/-- A head that may owe a COUNT owes one now. -/
theorem Laws.owe {i : Fin 8} (k : Laws q c (fun h => W h ∨ h = i) s) : Laws q c (fun h => W h ∨ h = i) (s.owe i) :=
  k.onHead (fun _ _ => id) id fun _ _ => .inr rfl

theorem Laws.oweHealth {i : Fin 8} (k : Laws q c (fun h => W h ∨ h = i) s) : Laws q c (fun h => W h ∨ h = i) (s.oweHealth i) := by
  unfold State.oweHealth
  split
  · exact k
  · exact k.owe

theorem oneChannelEvent_range {now : Time} {r : HeadRec} (h : HeadInRange r) : HeadInRange (r.oneChannelEvent now) := by
  obtain ⟨inc, dec, list⟩ := h
  have four : (pushOldest 4 (pruned now 60000 r.oneChannel) now).length ≤ 4 :=
    length_pushOldest_le (by decide) ((length_pruned_le _ _ _).trans list) _
  unfold HeadRec.oneChannelEvent
  dsimp only
  split
  · exact ⟨inc, dec, four⟩
  · exact ⟨inc, dec, four⟩

theorem oneChannelEvent_owed (now : Time) (r : HeadRec) : (r.oneChannelEvent now).owed = r.owed := by
  unfold HeadRec.oneChannelEvent
  dsimp only
  split <;> rfl

theorem axle_range {now : Time} {first : Bool} {r : HeadRec} (h : HeadInRange r) : HeadInRange (r.axle now first) := by
  obtain ⟨inc, dec, list⟩ := h
  cases first
  · exact ⟨inc, Nat.mod_lt _ (by decide), list⟩
  · exact ⟨Nat.mod_lt _ (by decide), dec, list⟩

theorem axle_owed (now : Time) (first : Bool) (r : HeadRec) : (r.axle now first).owed = r.owed := by cases first <;> rfl

/-- A change of a channel record is no matter of the laws. -/
theorem Laws.onChannel (k : Laws q c W s) (i : Fin 8) (ch : Channel) (f : ChannelRec → ChannelRec) :
    Laws q c W (s.onHead i (HeadRec.onChannel ch f)) := by
  refine k.quiet i ?_ ?_
  · cases ch <;> exact id
  · cases ch <;> rfl

theorem Laws.oneChannel {i : Fin 8} (k : Laws q c (fun h => W h ∨ h = i) s) :
    Laws q c (fun h => W h ∨ h = i) (s.oneChannel i) :=
  Laws.oweHealth (Laws.quiet (k.control (momentary_only s _ _ _)) i oneChannelEvent_range (oneChannelEvent_owed _ _))

theorem Laws.stuck {i : Fin 8} (k : Laws q c (fun h => W h ∨ h = i) s) : Laws q c (fun h => W h ∨ h = i) (s.stuck i) :=
  Laws.oweHealth (k.quiet i id rfl)

theorem Laws.noisePulse {i : Fin 8} (k : Laws q c (fun h => W h ∨ h = i) s) (ch : Channel) (m : Moment) :
    Laws q c (fun h => W h ∨ h = i) (s.noisePulse i ch m) := by
  unfold State.noisePulse
  split
  · exact k
  · exact (k.onChannel i _ _).oneChannel

theorem Laws.pairPulses {i : Fin 8} (k : Laws q c (fun h => W h ∨ h = i) s) (ch : Channel) (p w : Pulse) :
    Laws q c (fun h => W h ∨ h = i) (s.pairPulses i ch p w) := by
  unfold State.pairPulses
  dsimp only
  split
  · exact (k.onChannel i _ _).oneChannel
  · exact Laws.owe (Laws.quiet (k.onChannel i _ _) i axle_range (axle_owed _ _ _))

theorem Laws.validPulse {i : Fin 8} (k : Laws q c (fun h => W h ∨ h = i) s) (ch : Channel) (p : Pulse) :
    Laws q c (fun h => W h ∨ h = i) (s.validPulse i ch p) := by
  have last := k.onChannel i ch fun x => { x with last := some p }
  unfold State.validPulse
  dsimp only
  generalize s.onHead i (HeadRec.onChannel ch fun x => { x with last := some p }) = u at last
  split
  · exact last.pairPulses ch p _
  · split
    · exact last.oneChannel
    · split
      · exact last.onChannel i ch _
      · exact last.oneChannel

theorem Laws.judgePulse {i : Fin 8} (k : Laws q c (fun h => W h ∨ h = i) s) (ch : Channel) (limit : Nat) (p : Pulse) :
    Laws q c (fun h => W h ∨ h = i) (s.judgePulse i ch limit p) := by
  unfold State.judgePulse
  dsimp only
  split
  · exact k.noisePulse ch _
  · split
    · exact k.stuck
    · exact k.validPulse ch p

/-- The microseconds of an event are no matter of the laws. -/
theorem Laws.atMicros (k : Laws q c W s) (us : Nat) : Laws q c W (s.atMicros us) :=
  k.line ⟨_, _, _, _, rfl⟩ (.refl _)

theorem Laws.headEdge {i : Fin 8} (k : Laws q c (fun h => W h ∨ h = i) s) (ch : Channel) (on : Bool) (us : Nat) :
    Laws q c (fun h => W h ∨ h = i) (s.headEdge i ch on us) := by
  have k' := k.atMicros us
  unfold State.headEdge
  dsimp only
  generalize s.atMicros us = u at k'
  have ended := k'.onChannel i ch fun x => { x with level := false, since := none }
  split
  · exact k
  · split
    · exact k'.onChannel i ch _
    · split
      · exact ended
      · split
        · exact ended.judgePulse ch _ _
        · exact ended

theorem Laws.resetHead (k : Laws q c W s) (n : Nat) : Laws q c W (s.resetHead n) := by
  unfold State.resetHead
  split
  next h =>
    have went : Laws q c W (s.carryNow ⟨n, h⟩) := (k.mono fun _ => .inl).carryNow
    have restored : Laws q c W ((s.carryNow ⟨n, h⟩).onHead ⟨n, h⟩ HeadRec.restored) :=
      went.quiet _ (fun range => ⟨range.1, range.2.1, Nat.zero_le _⟩) rfl
    exact (restored.mono fun _ => .inl).oweHealth.carryNow
  · exact k

theorem Laws.opHeartbeat (k : Laws q c W s) (i : Fin 8) : Laws q c W (opHeartbeat i s) := by
  unfold Machine.opHeartbeat
  split
  · exact (k.mono fun _ => .inl).emit
  · exact k

end Laws

end Sys2Proof.Machine

namespace Sys2Proof.Machine

open Sys2Proof

section Laws

variable {q c : Prop} {W V : Fin 8 → Prop} {s t : State}

/-! ### The commands of the signal box (R192) -/

theorem Laws.reply (k : Laws q c W s) (dest tag : Byte) (o : ReplyOutcome) (d : ReplyData) :
    Laws q c W (s.reply dest tag o d) := k.line (reply_line s dest tag o d) (reply_kept s dest tag o d)

theorem Laws.hear (k : Laws q c W s) : Laws q c W s.hear := k.faults _

/-- The laws read of the Plan Store the plan in force alone. -/
theorem Laws.store (k : Laws q c W s) {x : PlanStore} (plan : x.plan = s.store.plan) : Laws q c W { s with store := x } := by
  refine ⟨k.queues, k.times, k.heads, k.dps, fun h named owes => k.held h ?_ owes⟩
  rw [State.named, dpTable_eq] at named ⊢
  exact plan ▸ named

theorem Laws.onStandby (k : Laws q c W s) (f : Bank → Bank) : Laws q c W (s.onStandby f) := by
  refine k.store ?_
  unfold PlanStore.onBank
  split <;> rfl

theorem Laws.cmdAckReport (k : Laws q c W s) (tag x y : Byte) : Laws q c W (cmdAckReport tag x y s) := by
  unfold Machine.cmdAckReport
  split
  · exact k.reply _ _ _ _
  · split
    · exact k.reply _ _ _ _
    · split
      · exact k.reply _ _ _ _
      · split
        · exact k.reply _ _ _ _
        · exact (k.faults _).reply _ _ _ _

theorem Laws.cmdClassEnable (k : Laws q c W s) (tag x y : Byte) : Laws q c W (cmdClassEnable tag x y s) := by
  unfold Machine.cmdClassEnable
  split
  · exact k.reply _ _ _ _
  · exact (k.faults _).reply _ _ _ _

theorem Laws.cmdRestoreSection (k : Laws q c W s) (tag x y : Byte) : Laws q c W (cmdRestoreSection tag x y s) := by
  unfold Machine.cmdRestoreSection
  split
  · exact (k.track (restoreSection_only s _ _)).reply _ _ _ _
  · exact k.reply _ _ _ _

theorem Laws.cmdResetLamp (k : Laws q c W s) (tag x : Byte) : Laws q c W (cmdResetLamp tag x s) := by
  unfold Machine.cmdResetLamp
  split
  · exact k.reply _ _ _ _
  · split
    · exact k.reply _ _ _ _
    · split
      · exact k.reply _ _ _ _
      · exact (k.control (setLights_only s _)).reply _ _ _ _

theorem Laws.cmdResetMachine (k : Laws q c W s) (tag x : Byte) : Laws q c W (cmdResetMachine tag x s) := by
  unfold Machine.cmdResetMachine
  dsimp only
  split
  · split
    · exact (k.control (resetMachine_only s _)).reply _ _ _ _
    · exact k.reply _ _ _ _
  · exact k.reply _ _ _ _

theorem Laws.cmdResetHead (k : Laws q c W s) (tag x : Byte) : Laws q c W (cmdResetHead tag x s) := by
  unfold Machine.cmdResetHead
  split
  · exact (k.resetHead _).reply _ _ _ _
  · exact k.reply _ _ _ _

theorem Laws.requests (k : Laws q c W s) (f : AuthorityRec → AuthorityRec) (tag : Byte) :
    Laws q c W ((s.requests f).replyOwner tag) := (k.control (requests_only s f)).reply _ _ _ _

theorem Laws.cmdRemoteRequest (k : Laws q c W s) (tag : Byte) : Laws q c W (cmdRemoteRequest tag s) := by
  unfold Machine.cmdRemoteRequest
  split
  · exact k.requests _ tag
  · exact k.reply _ _ _ _

theorem Laws.cmdTestRequest (k : Laws q c W s) (tag : Byte) : Laws q c W (cmdTestRequest tag s) := by
  unfold Machine.cmdTestRequest
  split
  · exact k.requests _ tag
  · exact k.reply _ _ _ _

theorem Laws.cmdLocalRelease (k : Laws q c W s) (tag : Byte) : Laws q c W (cmdLocalRelease tag s) := by
  unfold Machine.cmdLocalRelease
  split
  · exact k.requests _ tag
  · exact k.reply _ _ _ _

theorem Laws.cmdRemoteClose (k : Laws q c W s) (tag : Byte) : Laws q c W (cmdRemoteClose tag s) := by
  unfold Machine.cmdRemoteClose
  split
  · exact (k.control ((crossing_only s _).trans (causesChanged_only _))).reply _ _ _ _
  · exact k.reply _ _ _ _

theorem Laws.cmdRemoteOpen (k : Laws q c W s) (tag : Byte) : Laws q c W (cmdRemoteOpen tag s) := by
  unfold Machine.cmdRemoteOpen
  split
  · exact (k.control ((crossing_only s _).trans (causesChanged_only _))).reply _ _ _ _
  · exact k.reply _ _ _ _

theorem Laws.cmdTestStep (k : Laws q c W s) (tag x y : Byte) : Laws q c W (cmdTestStep tag x y s) := by
  unfold Machine.cmdTestStep
  split
  · exact k.reply _ _ _ _
  · split
    · exact k.reply _ _ _ _
    · split
      · exact (k.control (beginStep_only s tag _)).reply _ _ _ _
      · exact k.reply _ _ _ _

theorem Laws.cmdPortIsolate (k : Laws q c W s) (tag : Byte) : Laws q c W (cmdPortIsolate tag s) := by
  unfold Machine.cmdPortIsolate
  split
  · exact k.reply _ _ _ _
  · exact (k.line (isolate_line s) (isolate_kept s)).reply _ _ _ _

theorem Laws.cmdPortRestore (k : Laws q c W s) (tag : Byte) : Laws q c W (cmdPortRestore tag s) := by
  unfold Machine.cmdPortRestore
  split
  next isolated => exact (k.line (restorePort_line s) (restorePort_kept isolated)).reply _ _ _ _
  · exact k.reply _ _ _ _

theorem Laws.cmdRead (k : Laws q c W s) (tag x y : Byte) : Laws q c W (cmdRead tag x y s) := by
  unfold Machine.cmdRead
  split
  · exact k.reply _ _ _ _
  · exact k.reply _ _ _ _

/-! ### The Plan Store's commands (R16 to R24) -/

theorem Laws.opWriteComplete (k : Laws q c W s) : Laws q c W (opWriteComplete s) := by
  unfold Machine.opWriteComplete
  split
  · exact k
  · exact ((k.onStandby _).store (x := { (s.onStandby _).store with write := none }) rfl).reply _ _ _ _

theorem Laws.cmdPlanBlock (k : Laws q c W s) (tag : Byte) (args : List Byte) : Laws q c W (cmdPlanBlock tag args s) := by
  unfold Machine.cmdPlanBlock
  split
  · exact k.reply _ _ _ _
  · split
    · exact k.reply _ _ _ _
    · split
      · exact k.reply _ _ _ _
      · exact (k.onStandby _).store rfl

theorem Laws.cmdPlanCheck (k : Laws q c W s) (tag : Byte) : Laws q c W (cmdPlanCheck tag s) := by
  unfold Machine.cmdPlanCheck
  split
  · exact k.reply _ _ _ _
  · split
    · exact k.reply _ _ _ _
    · split
      · exact k.reply _ _ _ _
      · exact (k.onStandby _).reply _ _ _ _

theorem Laws.cmdPlanCancel (k : Laws q c W s) (tag : Byte) : Laws q c W (cmdPlanCancel tag s) := by
  unfold Machine.cmdPlanCancel
  split
  · exact (k.store (x := { s.store with pending := false }) rfl).reply _ _ _ _
  · exact k.reply _ _ _ _

theorem Laws.cmdPlanActivate (k : Laws q c W s) (tag : Byte) (i v : Nat) : Laws q c W (cmdPlanActivate tag i v s) := by
  have pending : Laws q c W { s with store := { s.store with pending := true } } := k.store rfl
  unfold Machine.cmdPlanActivate
  dsimp only
  split
  · exact k.reply _ _ _ _
  · split
    · exact k.reply _ _ _ _
    · split
      · exact k.reply _ _ _ _
      · split
        · exact pending.swapIfDue.reply _ _ _ _
        · exact pending.reply _ _ _ _

/-! ### A command of the box, a received telegram (R33 to R40) -/

theorem Laws.runCommand (k : Laws q c W s) (tag : Byte) (cmd : BoxCommand) : Laws q c W (runCommand tag cmd s) := by
  cases cmd with
  | planBlock l => exact k.cmdPlanBlock tag l
  | planCheck => exact k.cmdPlanCheck tag
  | planActivate i v => exact k.cmdPlanActivate tag _ _
  | planCancel => exact k.cmdPlanCancel tag
  | ackReport x y => exact k.cmdAckReport tag x y
  | reportsStart => exact (k.faults _).reply _ _ _ _
  | reportsStop => exact (k.faults _).reply _ _ _ _
  | classEnable x y => exact k.cmdClassEnable tag x y
  | restoreSection x y => exact k.cmdRestoreSection tag x y
  | resetLamp x => exact k.cmdResetLamp tag x
  | resetMachine x => exact k.cmdResetMachine tag x
  | resetHead x => exact k.cmdResetHead tag x
  | remoteRequest => exact k.cmdRemoteRequest tag
  | remoteRelease => exact k.requests _ tag
  | remoteClose => exact k.cmdRemoteClose tag
  | remoteOpen => exact k.cmdRemoteOpen tag
  | localRelease => exact k.cmdLocalRelease tag
  | localWithdraw => exact k.requests _ tag
  | testRequest => exact k.cmdTestRequest tag
  | testRelease => exact k.requests _ tag
  | testStep x y => exact k.cmdTestStep tag x y
  | portIsolate => exact k.cmdPortIsolate tag
  | portRestore => exact k.cmdPortRestore tag
  | clearAcked => exact (k.faults _).reply _ _ _ _
  | read x y => exact k.cmdRead tag x y

theorem Laws.decodeAndRun (k : Laws q c W s) (body : List Byte) : Laws q c W (decodeAndRun body s) := by
  unfold Machine.decodeAndRun
  split
  · split
    · exact k.reply _ _ _ _
    · split
      · exact k.reply _ _ _ _
      · exact k.runCommand _ _
  · exact k

theorem Laws.count (k : Laws q c W s) (p : Port) (f : Counters → Counters) : Laws q c W (s.count p f) :=
  k.line (count_line s p f) (count_kept s p f)

theorem Laws.consume (k : Laws q c W s) (p : Port) (x : Telegram) : Laws q c W (s.consume p x) := by
  unfold State.consume
  split
  · exact k.count p _
  · split
    · exact (k.count .box _).decodeAndRun _
    · exact (k.count p _).reply _ _ _ _

/-- The wrong-side set is no matter of the laws. -/
theorem Laws.wrongSides (k : Laws q c W s) (set : List Byte) : Laws q c W { s with lif := { s.lif with wrongSide := set } } :=
  k.line (lif_line s _) ⟨id, id⟩

theorem countOf_range {body : List Byte} {b : CountBody} (h : countOf body = some b) : AxlesInRange b.inc b.dec := by
  unfold countOf at h
  dsimp only at h
  split at h
  · split at h
    · split at h
      next range =>
        cases h
        exact ⟨Nat.lt_succ_of_le range.1, Nat.lt_succ_of_le range.2⟩
      · cases h
    · cases h
  · cases h

theorem Laws.checkDp (k : Laws q c W s) (p : Port) (x : Telegram) : Laws q c W (s.checkDp p x) := by
  unfold State.checkDp
  split
  next i body _ read =>
    split
    · exact k
    · split
      · unfold State.deliverLine
        dsimp only
        split
        · exact Laws.deliverBy (fun _ => Laws.swapIfDue) (((k.wrongSides _).control (clear_only _ _ _)).count p _) i
            fun _ => countOf_range read
        · exact Laws.deliverBy (fun _ => Laws.swapIfDue) (k.count p _) i fun _ => countOf_range read
      · unfold State.wrongSide
        dsimp only
        split
        · exact k.count p _
        · exact ((k.count p _).wrongSides _).control (raise_only _ _ _ _)
  · exact k

theorem Laws.passOn (k : Laws q c W s) (p : Port) (x : Telegram) : Laws q c W (s.passOn p x) := by
  have heard : Laws q c W (s.heardBy p x) := by
    unfold State.heardBy
    split
    · exact k.hear
    · exact k
  have relayed := heard.line (relay_line _ p x) (relay_kept _ p x)
  by_cases own : s.lif.station = some x.dest
  · rw [passOn_of_own own]
    exact heard.consume p x
  · by_cases kind : x.kind = kindCount
    · rw [passOn_of_count own kind]
      exact relayed.checkDp p x
    · rw [passOn_of_relayed own kind]
      exact relayed

theorem Laws.accept (k : Laws q c W s) (p : Port) (x : Telegram) : Laws q c W (s.accept p x) := by
  have arrived := (k.count p fun c => { c with received := up16 c.received }).line (activity_line _ p) (activity_kept _ p)
  unfold State.accept
  dsimp only
  split
  · exact arrived.line (loopDiscard_line _ p) (loopDiscard_kept _ p)
  · split
    · exact arrived.passOn p x
    · exact arrived.count p _

theorem Laws.opTelegram (k : Laws q c W s) (p : Port) (bytes : List Byte) (us : Nat) : Laws q c W (opTelegram p bytes us s) := by
  unfold Machine.opTelegram
  dsimp only
  split
  · exact k
  · split
    · exact (k.atMicros us).line (formatFailure_line _ p) (formatFailure_kept _ p)
    · exact (k.atMicros us).accept p _

/-! ### Edges of the panel and the supply -/

theorem Laws.pins (k : Laws q c W s) (p : Pins) : Laws q c W { s with pins := p } :=
  ⟨k.queues, k.times, k.heads, k.dps, k.held⟩

theorem Laws.opPanelClose (k : Laws q c W s) (b : Bool) : Laws q c W (opPanelClose b s) := by
  unfold Machine.opPanelClose
  dsimp only
  split
  · exact k
  · split
    · exact (k.pins _).control (causesChanged_only _)
    · exact k.pins _

theorem Laws.opPanelOpen (k : Laws q c W s) (b : Bool) : Laws q c W (opPanelOpen b s) := by
  unfold Machine.opPanelOpen
  dsimp only
  split
  · exact k
  · split
    · exact (k.pins _).control (causesChanged_only _)
    · exact k.pins _

theorem Laws.opBattLow (k : Laws q c W s) (b : Bool) : Laws q c W (opBattLow b s) := by
  unfold Machine.opBattLow
  dsimp only
  split
  · exact k
  · split
    · exact (k.pins _).control (raise_only _ _ _ _)
    · exact (k.pins _).control (clear_only _ _ _)

theorem Laws.opMainsOff (k : Laws q c W s) (b : Bool) : Laws q c W (opMainsOff b s) := by
  unfold Machine.opMainsOff
  dsimp only
  split
  · exact k
  · split
    · exact (k.pins _).control (raise_only _ _ _ _)
    · exact (k.pins _).control (clear_only _ _ _)

theorem Laws.opDrain (k : Laws q c W s) (n : Fin 64) : Laws q c W (opDrain n s) := by
  unfold Machine.opDrain
  split
  · exact k.faults _
  · exact k

theorem Laws.opAckDeadline (k : Laws q c W s) (n : Fin 64) : Laws q c W (opAckDeadline n s) := by
  unfold Machine.opAckDeadline
  split
  · exact k.faults _
  · exact k

end Laws

end Sys2Proof.Machine

namespace Sys2Proof.Machine

open Sys2Proof

section Laws

variable {q c : Prop} {W V : Fin 8 → Prop} {s t : State}

/-! ### The events of the heads that can be a change (R66, R67, R69, R72) -/

theorem Laws.opHeadEdge {i : Fin 8} (k : Laws q c (fun h => W h ∨ h = i) s) (waits : s.headWaits i = true → W i)
    (ch : Channel) (on : Bool) (us : Nat) : Laws q c W (opHeadEdge i ch on us s) := by
  have pending := (headEdge_detect s i ch on us).device.1
  exact (k.headEdge ch on us).carry fun wait => waits ((headWaits_congr pending i).symm.trans wait)

theorem Laws.opHeadStuck {i : Fin 8} (k : Laws q c (fun h => W h ∨ h = i) s) (waits : s.headWaits i = true → W i)
    (ch : Channel) : Laws q c W (opHeadStuck i ch s) := by
  unfold Machine.opHeadStuck
  split
  · have pending := (stuck_detect s i).device.1
    exact k.stuck.carry fun wait => waits ((headWaits_congr pending i).symm.trans wait)
  · exact k.carry waits

theorem Laws.opOneChannelExpiry {i : Fin 8} (k : Laws q c (fun h => W h ∨ h = i) s) (waits : s.headWaits i = true → W i) :
    Laws q c W (opOneChannelExpiry i s) := by
  have pruned : Laws q c (fun h => W h ∨ h = i)
      (s.onHead i fun r => { r with oneChannel := pruned s.clock 60000 r.oneChannel }) :=
    k.quiet i (fun ⟨inc, dec, list⟩ => ⟨inc, dec, (length_pruned_le _ _ _).trans list⟩) rfl
  unfold Machine.opOneChannelExpiry
  dsimp only
  split
  · exact pruned.owe.carry waits
  · exact pruned.carry waits

/-- The heads' COUNTs in turn, each going out or waiting for a further event of its head. -/
theorem Laws.carryAll (k : Laws q c V s) (waits : ∀ h, s.headWaits h = true → W h) : Laws q c W s.carryAll := by
  refine (Laws.foldl (V := W) (N := fun _ => True) (P := fun u => u.pending = s.pending) (fun U u i sub pending k => ?_)
    (List.finRange 8) rfl (k.mono fun h _ => .inr ⟨trivial, List.mem_finRange h⟩)).1
  have k := k.mono (V := fun h => U h ∨ h = i) fun h may => may.imp_right And.right
  refine ⟨k.carry fun wait => sub i (waits i ((headWaits_congr pending i).symm.trans wait)), ?_⟩
  exact (carry_covered covers_queue u i).1.trans pending

theorem Laws.opRestartedClears (k : Laws q c V s) (waits : ∀ h, s.headWaits h = true → W h) :
    Laws q c W (opRestartedClears s) := by
  unfold Machine.opRestartedClears
  split
  · have cleared : Laws q c (fun _ => True) s.clearRestarted := by
      refine ⟨k.queues, k.times, fun hc h => ?_, k.dps, fun _ _ _ => trivial⟩
      simp only [State.clearRestarted, Fin.getElem_fin, Vector.getElem_ofFn]
      exact k.heads hc h
    exact cleared.carryAll waits
  · exact k.carryAll waits

/-! ### START (R27, R53, R66, R72) -/

theorem Laws.cleared (s : State) : Laws q c (fun _ => False) s.cleared := by
  have head (h : Fin 8) : ∀ r, r = s.cleared.heads[h] → HeadInRange r ∧ r.owed = false := by
    rintro r rfl
    simp only [State.cleared, Fin.getElem_fin, Vector.getElem_ofFn]
    exact ⟨⟨(by decide : 0 < 4096), (by decide : 0 < 4096), Nat.zero_le 4⟩, rfl⟩
  refine ⟨fun _ => ?_, fun _ => ?_, fun _ h => (head h _ rfl).1, fun _ r hr => ?_, fun h _ owes => ?_⟩
  · exact ⟨Nat.zero_le _, Nat.zero_le _, Nat.zero_le _, Nat.zero_le _, Nat.zero_le _, Nat.zero_le _,
      fun _ => ⟨rfl, rfl, rfl, rfl⟩, fun _ => rfl, nofun⟩
  · exact ⟨Nat.zero_le _, Nat.zero_le _, Nat.zero_le _, Nat.zero_le _⟩
  · obtain ⟨e, -, rfl⟩ := List.mem_map.1 hr
    exact ⟨(by decide : 0 < 4096), (by decide : 0 < 4096)⟩
  · rw [(head h _ rfl).2] at owes
    exact Bool.false_ne_true owes

theorem Laws.emitAll (k : Laws q c W s) : Laws q c W s.emitAll :=
  (Laws.foldl (N := fun _ => False) (P := fun _ => True) (fun _ _ _ _ _ k =>
    ⟨Laws.emit (k.mono fun _ may => .inl (may.resolve_right fun no => no.1)), trivial⟩) (List.finRange 8) trivial
    (k.mono fun _ => .inl)).1

theorem Laws.startPart (s : State) : Laws q c (fun _ => False) (startPart s) :=
  (((Laws.cleared s.stopWrite).control (report_only _ _)).control (startOutputs_only _)).emitAll

/-! ### A step -/

theorem reaches_laws_of_completes {cmd : Instr} {op : State → State} (arm : exec cmd s = completes op s) (k : Laws q c W (op s)) :
    Reaches cmd s (Laws q c W) := ⟨_, arm, k.settle⟩

theorem reaches_laws_of_box {cmd : Instr} {tag : Byte} {b : BoxCommand} (k : Laws q c W s)
    (arm : exec cmd s = completes (boxCommand (runCommand tag b)) s) : Reaches cmd s (Laws q c W) :=
  reaches_laws_of_completes arm (k.hear.runCommand tag b)

/-- Every command but START: what it makes a head owe goes out, or waits for a further event of the head. -/
theorem exec_keeps_laws {cmd : Instr} (start : cmd ≠ .start) (k : Laws q c (fun h => W h ∨ changesHead h cmd = true) s)
    (waits : ∀ h, s.headWaits h = true → W h) : Reaches cmd s (Laws q c W) := by
  have quiet (h : ∀ i, changesHead i cmd = false) : Laws q c W s :=
    k.mono fun i may => may.resolve_right (by rw [h i]; exact Bool.false_ne_true)
  have own (i : Fin 8) (h : ∀ j, changesHead j cmd = decide (i = j)) : Laws q c (fun h => W h ∨ h = i) s :=
    k.mono fun j may => may.imp_right fun e => (of_decide_eq_true ((h j).symm.trans e)).symm
  cases cmd with
  | start => exact absurd rfl start
  -- the signal box
  | ackReport tag x y => exact reaches_laws_of_box (b := .ackReport x y) (quiet fun _ => rfl) rfl
  | reportsStart tag => exact reaches_laws_of_box (b := .reportsStart) (quiet fun _ => rfl) rfl
  | reportsStop tag => exact reaches_laws_of_box (b := .reportsStop) (quiet fun _ => rfl) rfl
  | classEnable tag x y => exact reaches_laws_of_box (b := .classEnable x y) (quiet fun _ => rfl) rfl
  | restoreSection tag x y => exact reaches_laws_of_box (b := .restoreSection x y) (quiet fun _ => rfl) rfl
  | resetEquipmentLamp tag x => exact reaches_laws_of_box (b := .resetLamp x) (quiet fun _ => rfl) rfl
  | resetEquipmentMachine tag x => exact reaches_laws_of_box (b := .resetMachine x) (quiet fun _ => rfl) rfl
  | resetEquipmentHead tag x => exact reaches_laws_of_box (b := .resetHead x) (quiet fun _ => rfl) rfl
  | remoteRequest tag => exact reaches_laws_of_box (b := .remoteRequest) (quiet fun _ => rfl) rfl
  | remoteRelease tag => exact reaches_laws_of_box (b := .remoteRelease) (quiet fun _ => rfl) rfl
  | remoteClose tag => exact reaches_laws_of_box (b := .remoteClose) (quiet fun _ => rfl) rfl
  | remoteOpen tag => exact reaches_laws_of_box (b := .remoteOpen) (quiet fun _ => rfl) rfl
  | localRelease tag => exact reaches_laws_of_box (b := .localRelease) (quiet fun _ => rfl) rfl
  | localWithdraw tag => exact reaches_laws_of_box (b := .localWithdraw) (quiet fun _ => rfl) rfl
  | testRequest tag => exact reaches_laws_of_box (b := .testRequest) (quiet fun _ => rfl) rfl
  | testRelease tag => exact reaches_laws_of_box (b := .testRelease) (quiet fun _ => rfl) rfl
  | testStep tag x y => exact reaches_laws_of_box (b := .testStep x y) (quiet fun _ => rfl) rfl
  | planBlock tag l => exact reaches_laws_of_box (b := .planBlock l) (quiet fun _ => rfl) rfl
  | planCheck tag => exact reaches_laws_of_box (b := .planCheck) (quiet fun _ => rfl) rfl
  | planActivate tag i v => exact reaches_laws_of_box (b := .planActivate i v) (quiet fun _ => rfl) rfl
  | planCancel tag => exact reaches_laws_of_box (b := .planCancel) (quiet fun _ => rfl) rfl
  | portIsolate tag => exact reaches_laws_of_box (b := .portIsolate) (quiet fun _ => rfl) rfl
  | portRestore tag => exact reaches_laws_of_box (b := .portRestore) (quiet fun _ => rfl) rfl
  | clearAcked tag => exact reaches_laws_of_box (b := .clearAcked) (quiet fun _ => rfl) rfl
  | read tag x y => exact reaches_laws_of_box (b := .read x y) (quiet fun _ => rfl) rfl
  -- the line and the Plan Store
  | telegramReceived p l us => exact reaches_laws_of_completes rfl ((quiet fun _ => rfl).opTelegram p l us)
  | planBlockWriteComplete => exact reaches_laws_of_completes rfl (quiet fun _ => rfl).opWriteComplete
  | fillReceived p => exact reaches_laws_of_completes rfl ((quiet fun _ => rfl).line (opFill_line p s) (opFill_kept p s))
  | complementBytes p => exact reaches_laws_of_completes rfl ((quiet fun _ => rfl).line (opComplement_line p s) (opComplement_kept p s))
  | portActivityTimeout p => exact reaches_laws_of_completes rfl ((quiet fun _ => rfl).line (opPortTimeout_line p s) (opPortTimeout_kept p s))
  | checkingComplete p =>
    exact reaches_laws_of_completes rfl ((quiet fun _ => rfl).line (opCheckingComplete_line p s) (opCheckingComplete_kept p s))
  | errorTimeExpiry p => exact reaches_laws_of_completes rfl ((quiet fun _ => rfl).line (opErrorExpiry_line p s) (opErrorExpiry_kept p s))
  | loopTimeExpiry p => exact reaches_laws_of_completes rfl ((quiet fun _ => rfl).line (opLoopExpiry_line p s) (opLoopExpiry_kept p s))
  | transmitEnd p => exact reaches_laws_of_completes rfl ((quiet fun _ => rfl).line (opTransmitEnd_line p s) (opTransmitEnd_kept p s))
  | statusPeriod => exact reaches_laws_of_completes rfl ((quiet fun _ => rfl).line (opStatusPeriod_line s) (opStatusPeriod_kept s))
  -- detection
  | dpSilenceDeadline i => exact reaches_laws_of_completes rfl ((quiet fun _ => rfl).opSilence i)
  | headChannelEdge i ch on us => exact reaches_laws_of_completes rfl ((own i fun _ => rfl).opHeadEdge (waits i) ch on us)
  | headStuck i ch => exact reaches_laws_of_completes rfl ((own i fun _ => rfl).opHeadStuck (waits i) ch)
  | oneChannelExpiry i => exact reaches_laws_of_completes rfl ((own i fun _ => rfl).opOneChannelExpiry (waits i))
  | restartedFlagClears => exact reaches_laws_of_completes rfl (k.opRestartedClears waits)
  | headHeartbeat i => exact reaches_laws_of_completes rfl ((quiet fun _ => rfl).opHeartbeat i)
  -- demands, crossing, authority
  | startTimeTimer n => exact reaches_laws_of_completes rfl ((quiet fun _ => rfl).track (opStartTimeTimer_only n s))
  | standingDeadline n => exact reaches_laws_of_completes rfl ((quiet fun _ => rfl).track (opStandingDeadline_only n s))
  | stateTimerDeadline => exact reaches_laws_of_completes rfl ((quiet fun _ => rfl).control (opStateTimer_only s))
  | exitTimerDeadline => exact reaches_laws_of_completes rfl ((quiet fun _ => rfl).control (opExitTimer_only s))
  | lampTestEnd => exact reaches_laws_of_completes rfl ((quiet fun _ => rfl).control (opLampTestEnd_only s))
  | keyEdge b => exact reaches_laws_of_completes rfl ((quiet fun _ => rfl).control (opKeyEdge_only b s))
  | panelCloseEdge b => exact reaches_laws_of_completes rfl ((quiet fun _ => rfl).opPanelClose b)
  | panelOpenEdge b => exact reaches_laws_of_completes rfl ((quiet fun _ => rfl).opPanelOpen b)
  -- lights, barrier, supply
  | zoneEdge b => exact reaches_laws_of_completes rfl ((quiet fun _ => rfl).control (opZoneEdge_only b s))
  | holdDeadline => exact reaches_laws_of_completes rfl ((quiet fun _ => rfl).control (opHoldDeadline_only s))
  | machineDetectorChange i u d b => exact reaches_laws_of_completes rfl ((quiet fun _ => rfl).control (opDetectorChange_only i u d b s))
  | leaveDeadline i => exact reaches_laws_of_completes rfl ((quiet fun _ => rfl).control (opLeaveDeadline_only i s))
  | travelDeadline i => exact reaches_laws_of_completes rfl ((quiet fun _ => rfl).control (opTravelDeadline_only i s))
  | halfPeriodEnd => exact reaches_laws_of_completes rfl ((quiet fun _ => rfl).control (opHalfPeriodEnd_only s))
  | lampSamplePoint v => exact reaches_laws_of_completes rfl ((quiet fun _ => rfl).control (opSamplePoint_only v s))
  | battLowEdge b => exact reaches_laws_of_completes rfl ((quiet fun _ => rfl).opBattLow b)
  | mainsOffEdge b => exact reaches_laws_of_completes rfl ((quiet fun _ => rfl).opMainsOff b)
  -- fault records
  | drainDeadline n => exact reaches_laws_of_completes rfl ((quiet fun _ => rfl).opDrain n)
  | ackDeadline n => exact reaches_laws_of_completes rfl ((quiet fun _ => rfl).opAckDeadline n)

/-- The tick takes times out of the lists and changes no head's debt (R34, R35, R69). -/
theorem Laws.tick (k : Laws q c W s) : Laws q c W s.tick := by
  have port (now : Time) (r : PortRec) (p : Port) : PortKept p r (r.prune now) :=
    ⟨id, fun _ => id, fun h => (length_pruned_le _ _ _).trans h, fun h => (length_pruned_le _ _ _).trans h⟩
  obtain ⟨l, d, tick, -⟩ := tick_eq s
  have lif : LifKept s.lif s.tick.lif := by
    rw [tick]
    exact (PortKept.lif (s := s) (p := .box) (f := PortRec.prune s.advance.clock) (port _ _ _)).trans
      (PortKept.lif (s := s.onPort .box (PortRec.prune s.advance.clock)) (p := .field)
        (f := PortRec.prune s.advance.clock) (port _ _ _))
  have heads (h : Fin 8) : s.tick.heads[h] =
      { s.heads[h] with oneChannel := pruned s.advance.clock 60000 s.heads[h].oneChannel } := by
    rw [tick]
    exact advance_heads s h
  refine ⟨fun hq => lif.queues (k.queues hq), fun hc => lif.times (k.times hc), fun hc h => ?_, ?_, fun h named owes => ?_⟩
  · obtain ⟨inc, dec, list⟩ := k.heads hc h
    rw [heads]
    exact ⟨inc, dec, (length_pruned_le _ _ _).trans list⟩
  · rw [tick]
    exact k.dps
  · rw [heads] at owes
    refine k.held h ?_ owes
    rwa [named_congr (by rw [tick])] at named

end Laws

/-- What holds at the beginning of a step, of any state. -/
theorem laws_at (s : State) : Laws (QueuesLaw s.lif) (CountersLaw s) (fun h => HeldLaw s → s.headWaits h = true) s where
  queues := id
  times law := ((countersLaw_iff s).1 law).1
  heads law := ((countersLaw_iff s).1 law).2.1
  dps law := ((countersLaw_iff s).1 law).2.2
  held h named owes law := law h named owes

/-- A step keeps each law, and a named head that owes a COUNT has an event waiting. -/
theorem step_keeps_laws {s t : State} (h : step s = .next t) :
    Laws (QueuesLaw s.lif) (CountersLaw s) (fun h => HeldLaw s → t.headWaits h = true) t := by
  cases pending : s.pending with
  | nil =>
    obtain rfl : s.tick = t := Host.Outcome.next.inj ((step_of_idle pending).symm.trans h)
    refine (laws_at s).tick.mono fun i waits law => ?_
    have none : s.headWaits i = false := by simp [State.headWaits, sameMoment_nil pending]
    exact absurd (none.symm.trans (waits law)) Bool.false_ne_true
  | cons cmd rest =>
    have arm : exec cmd { s with pending := rest } = .next t := by
      rw [← h, step, pending]
    by_cases start : cmd = .start
    · subst start
      obtain rfl : (startPart { s with pending := rest }).settle = t := Host.Outcome.next.inj arm
      exact (Laws.startPart _).settle.mono fun _ => False.elim
    · have begun : Laws (QueuesLaw s.lif) (CountersLaw s) (fun h =>
          (HeldLaw s → State.headWaits { s with pending := rest } h = true) ∨ changesHead h cmd = true)
          { s with pending := rest } := by
        obtain ⟨queues, times, heads, dps, held⟩ := laws_at s
        refine ⟨queues, times, heads, dps, fun i named owes => ?_⟩
        by_cases changes : changesHead i cmd = true
        · exact .inr changes
        · refine .inl fun law => ?_
          have waits := held i named owes law
          rw [headWaits_cons pending start, Bool.or_eq_true] at waits
          exact waits.resolve_left changes
      obtain ⟨u, reached, laws⟩ := exec_keeps_laws start begun fun i waits _ => waits
      obtain ⟨v, same, queue⟩ := exec_keeps_queue start { s with pending := rest }
      obtain rfl : u = t := Host.Outcome.next.inj (reached.symm.trans arm)
      obtain rfl : v = u := Host.Outcome.next.inj (same.symm.trans reached)
      exact laws.mono fun i waits law => (headWaits_congr queue.1 i).trans (waits law)

/-- Settles O18: the three laws go through every operation together. -/
theorem stepKeepsQueuesAndCounters : Obligations.StepKeepsQueuesAndCounters := by
  intro s t h
  obtain ⟨queues, times, heads, dps, held⟩ := step_keeps_laws h
  exact ⟨queues, fun law => (countersLaw_iff t).2 ⟨times law, heads law, dps law⟩,
    fun law i named owes => held i named owes law⟩

end Sys2Proof.Machine

namespace Sys2Proof.Machine

open Sys2Proof

/-! ### What detection changes when no activation waits (R53 to R72) -/

theorem raise_recordsOnly (t : FaultTable) (now : Time) (len : Nat) (c : FaultCode) (src : FaultSource) (cls : FaultClass) :
    RecordsOnly t (t.raise now len c src cls) := by
  unfold FaultTable.raise FaultTable.lose
  repeat' split
  · exact update_recordsOnly t _ _
  · exact put_recordsOnly t _ _
  · exact update_recordsOnly t _ _

theorem moment_recordsOnly (t : FaultTable) (now : Time) (len : Nat) (c : FaultCode) (src : FaultSource) (cls : FaultClass) :
    RecordsOnly t (t.moment now len c src cls) := by
  unfold FaultTable.moment FaultTable.lose
  repeat' split
  · exact update_recordsOnly t _ _
  · exact put_recordsOnly t _ _
  · exact update_recordsOnly t _ _

theorem clear_recordsOnly (t : FaultTable) (now : Time) (c : FaultCode) (src : FaultSource) :
    RecordsOnly t (t.clear now c src) := by
  unfold FaultTable.clear
  split
  · exact update_recordsOnly t _ _
  · exact .refl t

/-- Raises, momentary raises and clears leave the process, the timeouts and the enables. -/
theorem FaultTable.Told.recordsOnly {t u : FaultTable} (h : t.Told u) : RecordsOnly t u :=
  h.keeps (P := RecordsOnly t) (fun v now len a k => k.trans <| by
    cases a with
    | raise c src cls => exact raise_recordsOnly v now len c src cls
    | moment c src cls => exact moment_recordsOnly v now len c src cls
    | clear c src => exact clear_recordsOnly v now c src) (.refl t)

theorem DetectFrame.trans {s t u : State} (h : DetectFrame s t) (k : DetectFrame t u) : DetectFrame s u := by
  obtain ⟨line, records, rest⟩ := h
  obtain ⟨line', records', rest'⟩ := k
  exact ⟨line.trans line', records.trans records', rest'.trans (by rw [rest])⟩

theorem DetectFrame.refl (s : State) : DetectFrame s s := ⟨rfl, rfl, rfl⟩

theorem DetectFrame.store {s t : State} (h : DetectFrame s t) : t.store = s.store := by rw [h.2.2]

theorem LineFrame.detect {s t : State} (h : LineFrame s t) : DetectFrame s t := by
  obtain ⟨line, records, rest⟩ := h
  exact ⟨line, records, by rw [rest]⟩

theorem LineFrame.heads {s t : State} (h : LineFrame s t) : t.heads = s.heads := by rw [h.2.2]

theorem LineFrame.tracks {s t : State} (h : LineFrame s t) : t.us = s.us ∧ t.dps = s.dps ∧ t.sects = s.sects := by
  rw [h.2.2]
  exact ⟨rfl, rfl, rfl⟩

theorem TrackOnly.frame {s t : State} (h : TrackOnly s t) : DetectFrame s t := by
  obtain ⟨f, c, a, l, b, d, x, told, rfl⟩ := h
  exact ⟨rfl, told.recordsOnly, rfl⟩

/-- What a COUNT changes when no activation waits: the DP records, and what the track and control own. -/
def CountOnly (s t : State) : Prop := ∃ p, TrackOnly { s with dps := p } t

theorem TrackOnly.count {s t : State} (h : TrackOnly s t) : CountOnly s t := ⟨s.dps, h⟩

theorem ControlOnly.count {s t : State} (h : ControlOnly s t) : CountOnly s t := h.track.count

theorem setDp_count (s : State) (i : Nat) (r : DpRec) : CountOnly s (s.setDp i r) := ⟨_, .refl _⟩

theorem CountOnly.refl (s : State) : CountOnly s s := (TrackOnly.refl s).count

theorem CountOnly.trans {s t u : State} (h : CountOnly s t) (k : CountOnly t u) : CountOnly s u := by
  obtain ⟨p, h⟩ := h
  obtain ⟨q, k⟩ := k
  obtain ⟨f, c, a, l, b, d, x, told, rfl⟩ := h
  exact ⟨q, TrackOnly.trans ⟨f, c, a, l, b, d, x, told, rfl⟩ k⟩

theorem CountOnly.frame {s t : State} (h : CountOnly s t) : DetectFrame s t := by
  obtain ⟨p, f, c, a, l, b, d, x, told, rfl⟩ := h
  exact ⟨rfl, told.recordsOnly, rfl⟩

theorem CountOnly.heads {s t : State} (h : CountOnly s t) : t.heads = s.heads := by
  obtain ⟨p, f, c, a, l, b, d, x, told, rfl⟩ := h
  rfl

theorem clearSilent_only (s : State) (i : Nat) (was : DpState) : ControlOnly s (s.clearSilent i was) := by
  unfold State.clearSilent
  split
  · exact clear_only s _ _
  · exact .refl s

theorem dpFailed_count (s : State) (i : Nat) (was : DpState) (r : DpRec) : CountOnly s (s.dpFailed i was r) := by
  unfold State.dpFailed
  dsimp only
  split
  · exact setDp_count s i _
  · exact (((setDp_count s i _).trans (disturbDp_only _ i _).count).trans (raise_only _ _ _ _).count).trans
      (clearSilent_only _ i was).count

theorem dpBaseline_count (s : State) (i : Nat) (d : Delivery) (was : DpState) (r : DpRec) :
    CountOnly s (s.dpBaseline i d was r) := by
  unfold State.dpBaseline
  dsimp only
  split
  · exact dpFailed_count s i was _
  · exact ((setDp_count s i _).trans (clearSilent_only _ i was).count).trans (clear_only _ _ _).count

theorem handOn_only {s : State} (idle : NoActivation s) (i a b : Nat) (ev : Option Time) : TrackOnly s (s.handOn i a b ev) := by
  rw [handOn_of_idle idle]
  have sects := countDelta_only s i a b
  dsimp only
  split <;> split
  · exact sects
  · exact sects.trans (passage_only _ _ _ _)
  · exact sects.trans (passage_only _ _ _ _)
  · exact (sects.trans (passage_only _ _ _ _)).trans (passage_only _ _ _ _)

theorem dpPlausible_count {s : State} (idle : NoActivation s) (i : Nat) (d : Delivery) (timed renumbered : Bool) (a b : Nat)
    (r : DpRec) : CountOnly s (s.dpPlausibleBy State.swapIfDue i d timed renumbered a b r) := by
  unfold State.dpPlausibleBy
  dsimp only
  split
  · exact setDp_count s i _
  · exact (setDp_count s i _).trans (handOn_only (s := s.setDp i _) idle i a b _).count

theorem dpCount_count {s : State} (idle : NoActivation s) (i : Nat) (d : Delivery) (timed handled : Bool) (r : DpRec) :
    CountOnly s (s.dpCountBy State.swapIfDue i d timed handled r) := by
  unfold State.dpCountBy
  dsimp only
  split
  · exact ((setDp_count s i _).trans (disturbDp_only _ i _).count).trans (momentary_only _ _ _ _).count
  · split
    · exact (setDp_count s i _).trans (disturbDp_only _ i _).count
    · exact dpPlausible_count idle i d timed _ _ _ _

/-- A COUNT delivered touches neither the heads nor the line. -/
theorem deliver_count {s : State} (idle : NoActivation s) (i : Nat) (d : Delivery) : CountOnly s (s.deliver i d) := by
  unfold State.deliver State.deliverBy
  split
  · exact .refl s
  · split
    · exact .refl s
    · dsimp only
      have live (r : DpRec) (c : FaultCode) : CountOnly s ((s.setDp i r).clear c (dpSource i)) :=
        (setDp_count s i r).trans (clear_only _ _ _).count
      split
      · exact dpBaseline_count s i d _ _
      · split
        · exact dpFailed_count s i _ _
        · split
          · refine (live _ _).trans (dpCount_count ?_ i d _ _ _)
            exact idle
          · refine ((live _ _).trans (clear_only _ _ _).count).trans (dpCount_count ?_ i d _ _ _)
            exact idle
          · exact dpCount_count idle i d _ _ _

end Sys2Proof.Machine

namespace Sys2Proof.Machine

open Sys2Proof

/-! ### One head (R66, R71, R72) -/

/-- `t` follows from `s` by detection, and of the heads only `h` may differ. -/
def OneHead (h : Fin 8) (s t : State) : Prop := DetectFrame s t ∧ ∀ k, k ≠ h → t.heads[k] = s.heads[k]

theorem OneHead.refl (h : Fin 8) (s : State) : OneHead h s s := ⟨.refl s, fun _ _ => rfl⟩

theorem OneHead.trans {h : Fin 8} {s t u : State} (a : OneHead h s t) (b : OneHead h t u) : OneHead h s u :=
  ⟨a.1.trans b.1, fun k other => (b.2 k other).trans (a.2 k other)⟩

theorem onHead_one (s : State) (h : Fin 8) (f : HeadRec → HeadRec) : OneHead h s (s.onHead h f) :=
  ⟨⟨rfl, rfl, rfl⟩, fun _ other => heads_onHead_other s other f⟩

theorem LineFrame.one {s t : State} (frame : LineFrame s t) (h : Fin 8) : OneHead h s t :=
  ⟨frame.detect, fun _ _ => by rw [frame.heads]⟩

/-- A named head's entry in the DP table is there. -/
theorem dpOfHead_of_named {s : State} {h : Fin 8} (named : s.named h = true) :
    ∃ i e, dpOfHead s.dpTable h = some i ∧ s.dpTable[i]? = some e := by
  obtain ⟨i, index⟩ := Option.isSome_iff_exists.1 named
  obtain ⟨j, e, rfl, entry, -⟩ := indexWhere_eq_some.1 index
  exact ⟨_, e, index, (Nat.zero_add j).symm ▸ entry⟩

/-- The COUNT of a head offered to both ports under the virtual address of its entry, before its delivery (R41, R72). -/
def State.countOffered (s : State) (h : Fin 8) (e : DpEntry) : State :=
  let w : Waiting := ⟨255, e.address, .count (s.heads[h].nextBody s.clock), .axle s.heads[h].earliest⟩
  ((s.onHead h (HeadRec.emitted s.clock)).offerBox 3 w).offerField w

theorem countOffered_frame (s : State) (h : Fin 8) (e : DpEntry) :
    LineFrame (s.onHead h (HeadRec.emitted s.clock)) (s.countOffered h e) :=
  (offerBox_end _ 3 _).frame.trans (offerField_frame _ _)

theorem emit_of_entry {s : State} {h : Fin 8} {i : Nat} {e : DpEntry} (index : dpOfHead s.dpTable h = some i)
    (entry : s.dpTable[i]? = some e) : s.emit h = (s.countOffered h e).deliver i
      ⟨s.heads[h].nextBody s.clock, (s.countOffered h e).clock, .localHead, s.heads[h].earliest⟩ := by
  simp only [State.emit, State.emitBy, index, entry]
  rfl

/-- The COUNT of a named head goes out, and its record says so (R72). -/
theorem emit_of_named {s : State} {h : Fin 8} (idle : NoActivation s) (named : s.named h = true) :
    OneHead h s (s.emit h) ∧ (s.emit h).heads[h] = s.heads[h].emitted s.clock := by
  obtain ⟨i, e, index, entry⟩ := dpOfHead_of_named named
  have offered := countOffered_frame s h e
  have sent := (onHead_one s h _).trans (offered.one h)
  have still : NoActivation (s.countOffered h e) := by rw [NoActivation, sent.1.store]; exact idle
  rw [emit_of_entry index entry]
  have taken := deliver_count still i
    ⟨s.heads[h].nextBody s.clock, (s.countOffered h e).clock, .localHead, s.heads[h].earliest⟩
  refine ⟨sent.trans ⟨taken.frame, fun k _ => by rw [taken.heads]⟩, ?_⟩
  rw [taken.heads, offered.heads, heads_onHead_same]

theorem carryNow_of_clear {s : State} {h : Fin 8} (clear : s.heads[h].owed = false) : s.carryNow h = s := by
  rw [State.carryNow, clear]
  rfl

theorem carryNow_of_owed {s : State} {h : Fin 8} (owed : s.heads[h].owed = true) : s.carryNow h = s.emit h := by
  rw [State.carryNow, owed]
  rfl

/-- What a named head owes goes out; its failure, its counters and the levels of its channels stand (R72). -/
theorem carryNow_of_named {s : State} {h : Fin 8} (idle : NoActivation s) (named : s.named h = true) :
    OneHead h s (s.carryNow h) ∧ (s.carryNow h).heads[h].owed = false ∧ (s.carryNow h).heads[h].inc = s.heads[h].inc ∧
      (s.carryNow h).heads[h].dec = s.heads[h].dec := by
  cases owed : s.heads[h].owed with
  | false =>
    rw [carryNow_of_clear owed]
    exact ⟨.refl h s, owed, rfl, rfl⟩
  | true =>
    rw [carryNow_of_owed owed]
    obtain ⟨one, head⟩ := emit_of_named idle named
    rw [head]
    exact ⟨one, rfl, rfl, rfl⟩

/-! ### RESET EQUIPMENT of a head (O35) -/

/-- A head as its reset leaves it: OK, its last COUNT saying so, its counters those of `r` (R71, R72). -/
structure HeadRec.ResetFrom (r r' : HeadRec) : Prop where
  failed : r'.failed = false
  cause : r'.cause = .none
  oneChannel : r'.oneChannel = []
  inc : r'.inc = r.inc
  dec : r'.dec = r.dec
  sentHealth : r'.sentHealth = .ok
  owed : r'.owed = false

theorem healthAt_of_quiet {r : HeadRec} (ok : r.failed = false) (quiet : r.oneChannel = []) (now : Time) :
    r.healthAt now = .ok := by simp [HeadRec.healthAt, ok, quiet, pruned]

/-- The COUNT after a restored head owes its change of health: the last COUNT of the head says OK (R72). -/
theorem healthCarried_of_restored {s : State} {h : Fin 8} (idle : NoActivation s) (named : s.named h = true) {r : HeadRec}
    (clear : r.owed = false) (head : s.heads[h] = r.restored) :
    OneHead h s ((s.oweHealth h).carryNow h) ∧ r.ResetFrom ((s.oweHealth h).carryNow h).heads[h] := by
  by_cases same : s.heads[h].healthAt s.clock = s.heads[h].sentHealth
  · have quiet : s.oweHealth h = s := if_pos same
    rw [quiet, carryNow_of_clear (by rw [head]; exact clear), head]
    rw [head, healthAt_of_quiet rfl rfl] at same
    exact ⟨.refl h s, rfl, rfl, rfl, rfl, rfl, same.symm, clear⟩
  · have owes : s.oweHealth h = s.owe h := if_neg same
    have owed : (s.owe h).heads[h] = { r.restored with owed := true } := by
      rw [State.owe, heads_onHead_same, head]
    obtain ⟨one, out⟩ := emit_of_named (s := s.owe h) idle named
    rw [owes, carryNow_of_owed (by rw [owed]), out, owed]
    have ok := healthAt_of_quiet (r := { r.restored with owed := true }) rfl rfl s.clock
    exact ⟨(onHead_one s h _).trans one, rfl, rfl, rfl, rfl, rfl, ok, rfl⟩

/-- The reset of a named head, before its REPLY (R71, R72; log 37). -/
theorem resetHead_of_named {s : State} {h : Fin 8} (idle : NoActivation s) (named : s.named h = true) :
    OneHead h s (s.resetHead h.val) ∧ s.heads[h].ResetFrom (s.resetHead h.val).heads[h] := by
  obtain ⟨carried, clear, inc, dec⟩ := carryNow_of_named idle named
  have restored := onHead_one (s.carryNow h) h HeadRec.restored
  have store := (carried.trans restored).1.store
  obtain ⟨last, reset⟩ := healthCarried_of_restored (by rw [NoActivation, store]; exact idle)
    (by rw [named_congr store]; exact named) clear (heads_onHead_same _ h HeadRec.restored)
  unfold State.resetHead
  rw [dif_pos h.isLt]
  exact ⟨(carried.trans restored).trans last, { reset with inc := reset.inc.trans inc, dec := reset.dec.trans dec }⟩

theorem exec_resetHead_of_refused {n : Byte} {s : State} {o : ReplyOutcome} (outcome : s.resetHeadOutcome n.toNat = o)
    (refused : o ≠ .done) (tag : Byte) :
    exec (.resetEquipmentHead tag n) s = .next (s.hear.reply 0 tag o .none).settle := by
  have hears : s.hear.resetHeadOutcome n.toNat = o := outcome
  show completes (boxCommand (cmdResetHead tag n)) s = _
  unfold completes boxCommand cmdResetHead
  rw [hears]
  cases o with
  | done => exact absurd rfl refused
  | _ => rfl

/-- The end of the step of a reset that is done. -/
theorem exec_resetHead_of_done {n : Byte} {s : State} (outcome : s.resetHeadOutcome n.toNat = .done) (tag : Byte) :
    exec (.resetEquipmentHead tag n) s = .next ((s.hear.resetHead n.toNat).reply 0 tag .done .none).settle := by
  have hears : s.hear.resetHeadOutcome n.toNat = .done := outcome
  show completes (boxCommand (cmdResetHead tag n)) s = _
  unfold completes boxCommand cmdResetHead
  rw [hears]

theorem resetHeadOutcome_of_range {s : State} {n : Nat} (h : 7 < n) : s.resetHeadOutcome n = .refusedRange :=
  dif_neg (by omega)

theorem resetHeadOutcome_of_head (s : State) (h : Fin 8) : s.resetHeadOutcome h.val =
    if s.named h = false then .refusedRange
    else if s.heads[h].failed = true ∧ s.heads[h].a.level = false ∧ s.heads[h].b.level = false then .done
    else .refusedState := by
  unfold State.resetHeadOutcome
  rw [dif_pos h.isLt]
  simp only [Fin.eta, Bool.not_eq_true', Bool.and_eq_true, and_assoc]

theorem reply_frame (s : State) (dest tag : Byte) (o : ReplyOutcome) (d : ReplyData) : LineFrame s (s.reply dest tag o d) := by
  unfold State.reply
  split
  · exact .refl s
  · exact (offerBox_end s _ _).frame

/-- Settles O35: the refusals in their order, else the reset, whose COUNT has gone out before the REPLY. -/
theorem resetHeadReturnsItToOk : Obligations.ResetHeadReturnsItToOk := by
  intro tag n s
  refine ⟨fun beyond => exec_resetHead_of_refused (resetHeadOutcome_of_range beyond) nofun tag, fun h index => ?_⟩
  have outcome := (congrArg s.resetHeadOutcome index).trans (resetHeadOutcome_of_head s h)
  refine ⟨fun unnamed => ?_, fun named bad => ?_, fun named failed a b idle => ?_⟩
  · rw [if_pos unnamed] at outcome
    exact exec_resetHead_of_refused outcome nofun tag
  · have not_done : ¬(s.heads[h].failed = true ∧ s.heads[h].a.level = false ∧ s.heads[h].b.level = false) := by
      rintro ⟨failed, a, b⟩
      rw [failed, a, b] at bad
      simp at bad
    rw [if_neg (by rw [named]; exact nofun), if_neg not_done] at outcome
    exact exec_resetHead_of_refused outcome nofun tag
  · rw [if_neg (by rw [named]; exact nofun), if_pos ⟨failed, a, b⟩] at outcome
    refine ⟨_, exec_resetHead_of_done outcome tag, ?_⟩
    rw [index]
    obtain ⟨one, reset⟩ := resetHead_of_named (s := s.hear) idle named
    have reply := reply_frame (s.hear.resetHead h.val) 0 tag .done .none
    have still : NoActivation ((s.hear.resetHead h.val).reply 0 tag .done .none) := by
      rw [NoActivation, (one.1.trans reply.detect).store]
      exact idle
    rw [settle_of_idle still]
    have ended := reply.trans (finish_frame _).1.frame
    obtain ⟨frame, others⟩ := one.trans (ended.one h)
    rw [ended.heads]
    exact ⟨frame, fun k other => by rw [← ended.heads]; exact others k other, reset.failed, reset.cause, reset.oneChannel,
      reset.inc, reset.dec, reset.sentHealth, reset.owed⟩

end Sys2Proof.Machine

namespace Sys2Proof.Machine

open Sys2Proof

/-! ### One DP record, and the sections after an event (R53, R74) -/

theorem dps_setDp_same {s : State} {i : Nat} {r : DpRec} (get : s.dps[i]? = some r) (q : DpRec) :
    (s.setDp i q).dps[i]? = some q := by
  obtain ⟨inside, -⟩ := List.getElem?_eq_some_iff.1 get
  rw [setDp_dps, modifyAt_of_some _ get, List.getElem?_set_self inside]

theorem dps_setDp_other {s : State} {i j : Nat} {r : DpRec} (get : s.dps[i]? = some r) (q : DpRec) (h : j ≠ i) :
    (s.setDp i q).dps[j]? = s.dps[j]? := by
  rw [setDp_dps, modifyAt_of_some _ get, List.getElem?_set_ne h.symm]

theorem ControlOnly.sects {s t : State} (h : ControlOnly s t) : t.sects = s.sects := by
  obtain ⟨f, c, a, l, b, -, rfl⟩ := h
  rfl

theorem TrackOnly.records {s t : State} (h : TrackOnly s t) :
    t.store = s.store ∧ t.us = s.us ∧ t.dps = s.dps ∧ t.heads = s.heads := by
  obtain ⟨f, c, a, l, b, d, x, -, rfl⟩ := h
  exact ⟨rfl, rfl, rfl, rfl⟩

/-- The demands leave the sections as they are. -/
theorem eachDemand_sects (s : State) (f : DemandCtx → DemandRec → DemandStep) : (s.eachDemand f).sects = s.sects := by
  unfold State.eachDemand
  split
  · rfl
  · rfl

theorem passage_sects (s : State) (i : Nat) (dir : CountDir) (ev : Option Time) : (s.passage i dir ev).sects = s.sects :=
  (tell_only _).sects.trans (eachDemand_sects s _)

theorem sectionEvent_sects (s : State) (f : SectionEntry → SectRec → SectRec) :
    (s.sectionEvent f).sects = zipWithList f s.sectTable s.sects :=
  (tell_only _).sects.trans (eachDemand_sects _ _)

/-- A disturbance puts each section that the DP bounds in DISTURBED, and leaves every other (R65, R78). -/
theorem disturbDp_sects (s : State) (i : Nat) (cause : SectCause) {j : Nat} {e : SectionEntry} {x : SectRec}
    (entry : s.sectTable[j]? = some e) (get : s.sects[j]? = some x) :
    (s.disturbDp i cause).sects[j]? = some (if boundedBy i e then x.disturb s.clock cause 0 0 else x) := by
  rw [State.disturbDp, sectionEvent_sects, zipWithList_getElem? _ entry get]

/-- The axles of a DP as a section takes them, by the entering direction (R75). -/
def SectRec.takenFrom (now : Time) (i dInc dDec : Nat) (e : SectionEntry) (x : SectRec) : SectRec :=
  match enteringOf e i with
  | none => x
  | some .inc => x.take now dInc dDec
  | some .dec => x.take now dDec dInc

theorem countDelta_eq (s : State) (i dInc dDec : Nat) :
    s.countDelta i dInc dDec = s.sectionEvent (SectRec.takenFrom s.clock i dInc dDec) := rfl

theorem countDelta_sects (s : State) (i dInc dDec : Nat) {j : Nat} {e : SectionEntry} {x : SectRec}
    (entry : s.sectTable[j]? = some e) (get : s.sects[j]? = some x) :
    (s.countDelta i dInc dDec).sects[j]? = some (x.takenFrom s.clock i dInc dDec e) := by
  rw [countDelta_eq, sectionEvent_sects, zipWithList_getElem? _ entry get]

/-! ### What a section event reports (R79, R85) -/

theorem mem_zipWithList {α β γ : Type} {f : α → β → γ} {l : List α} {m : List β} {z : γ} :
    z ∈ zipWithList f l m ↔ ∃ (j : Nat) (x : α) (y : β), l[j]? = some x ∧ m[j]? = some y ∧ f x y = z := by
  simp only [List.mem_iff_getElem?, zipWithList_eq, List.getElem?_zipWith_eq_some]

/-- A report of a section event is the report of one section. -/
theorem mem_sectEventActs {unproved : Bool} {table : List SectionEntry} {old new : List SectRec} {act : FaultAct} :
    act ∈ sectEventActs unproved table old new ↔ ∃ (j : Nat) (e : SectionEntry) (x y : SectRec), table[j]? = some e ∧
      old[j]? = some x ∧ new[j]? = some y ∧ act ∈ sectActs unproved j e x y := by
  unfold sectEventActs
  rw [List.mem_flatten]
  constructor
  · rintro ⟨acts, among, mem⟩
    obtain ⟨j, ⟨n, e⟩, ⟨x, y⟩, entry, pair, rfl⟩ := mem_zipWithList.1 among
    obtain ⟨e', he, same⟩ := Option.map_eq_some_iff.1 ((indexed_getElem? 0 table j).symm.trans entry)
    rw [zipWithList_eq] at pair
    obtain ⟨x', y', hx, hy, both⟩ := List.getElem?_zipWith_eq_some.1 pair
    obtain ⟨rfl, rfl⟩ := Prod.mk.inj same
    obtain ⟨rfl, rfl⟩ := Prod.mk.inj both
    exact ⟨j, e', x', y', he, hx, hy, (Nat.zero_add j) ▸ mem⟩
  · rintro ⟨j, e, x, y, entry, hx, hy, mem⟩
    refine ⟨_, mem_zipWithList.2 ⟨j, (j, e), (x, y), ?_, zipWithList_getElem? _ hx hy, rfl⟩, mem⟩
    rw [indexed_getElem?, entry, Nat.zero_add]
    rfl

/-- A report that names section `j` is the report of that section. -/
theorem mem_sectEventActs_of_source {unproved : Bool} {table : List SectionEntry} {old new : List SectRec} {act : FaultAct}
    {j : Nat} {e : SectionEntry} {x y : SectRec} (entry : table[j]? = some e) (hx : old[j]? = some x) (hy : new[j]? = some y)
    (source : ∀ k e x y, act ∈ sectActs unproved k e x y → (⟨.sect, j⟩ : FaultSource) = ⟨.sect, k⟩) :
    act ∈ sectEventActs unproved table old new ↔ act ∈ sectActs unproved j e x y := by
  rw [mem_sectEventActs]
  constructor
  · rintro ⟨k, e', x', y', entry', hx', hy', mem⟩
    cases source k e' x' y' mem
    cases entry.symm.trans entry'
    cases hx.symm.trans hx'
    cases hy.symm.trans hy'
    exact mem
  · exact fun mem => ⟨j, e, x, y, entry, hx, hy, mem⟩

theorem raise_mem_sectActs {unproved : Bool} {j : Nat} {e : SectionEntry} {x y : SectRec} {src : FaultSource}
    {cls : FaultClass} : .raise .sectionDisturbed src cls ∈ sectActs unproved j e x y ↔
      (x.state ≠ .disturbed ∧ y.state = .disturbed) ∧ src = ⟨.sect, j⟩ ∧ cls = sectClass e := by
  simp [sectActs]

theorem clear_mem_sectActs {unproved : Bool} {j : Nat} {e : SectionEntry} {x y : SectRec} {src : FaultSource} :
    .clear .sectionDisturbed src ∈ sectActs unproved j e x y ↔
      (x.state.doubtful = true ∧ y.state = .clear) ∧ src = ⟨.sect, j⟩ := by
  simp [sectActs]

theorem moment_mem_sectActs {unproved : Bool} {j : Nat} {e : SectionEntry} {x y : SectRec} {src : FaultSource}
    {cls : FaultClass} : .moment .islandUnprotected src cls ∈ sectActs unproved j e x y ↔
      (e.kind = .island ∧ x.state = .clear ∧ y.state = .occupied ∧ unproved = true) ∧
        src = ⟨.sect, j⟩ ∧ cls = .safety := by
  simp [sectActs]

theorem doubtful_iff (st : SectState) : st.doubtful = true ↔ st = .disturbed ∨ st = .restoring := by
  simp [SectState.doubtful]

theorem isClosed_iff (c : CrossingState) : c.isClosed = true ↔ c = .closed ∨ c = .degraded := by cases c <;> decide

theorem not_isClosed_iff (c : CrossingState) : (!c.isClosed) = false ↔ c = .closed ∨ c = .degraded := by
  rw [Bool.not_eq_false', isClosed_iff]

/-- Reports reach the Fault Table one after another, each as its own raise, momentary raise or clear. -/
theorem report_cons (s : State) (act : FaultAct) (l : List FaultAct) : s.report (act :: l) = (s.report [act]).report l := rfl

/-! ### The silence of a DP (O32) -/

theorem boundedBy_iff (i : Nat) (e : SectionEntry) : boundedBy i e = true ↔ ∃ b ∈ e.bounds, b.dp = i := by
  simp [boundedBy]

theorem boundsIsland_iff (s : State) (i : Nat) : s.boundsIsland i = true ↔
    ∃ e ∈ s.sectTable, e.kind = .island ∧ ∃ b ∈ e.bounds, b.dp = i := by
  simp [State.boundsIsland, boundedBy_iff]

/-- The class of a DP's own faults: SAFETY where it bounds an island, URGENT otherwise (R65, R174). -/
theorem dpClass_of_bounds {s : State} {i : Nat} {cls : FaultClass}
    (h : (cls = .safety ∧ ∃ e ∈ s.sectTable, e.kind = .island ∧ ∃ b ∈ e.bounds, b.dp = i) ∨
      (cls = .urgent ∧ ∀ e ∈ s.sectTable, e.kind = .island → ∀ b ∈ e.bounds, b.dp ≠ i)) : s.dpClass i = cls := by
  unfold State.dpClass
  rcases h with ⟨rfl, bounds⟩ | ⟨rfl, none⟩
  · exact if_pos ((boundsIsland_iff s i).2 bounds)
  · refine if_neg fun bounds => ?_
    obtain ⟨e, mem, island, b, hb, dp⟩ := (boundsIsland_iff s i).1 bounds
    exact none e mem island b hb dp

theorem opSilence_of_early {s : State} {i : Nat} {r : DpRec} (get : s.dps[i]? = some r)
    (early : r.silenceDue s.clock = false) : opSilence i s = s := by
  simp only [opSilence, get, early]
  rfl

/-- The record of a DP made SILENT, its deadline no longer set (R63). -/
def State.silentDp (s : State) (i : Nat) (r : DpRec) : State := s.setDp i { r with state := .silent, deadline := none }

theorem opSilence_of_due {s : State} {i : Nat} {r : DpRec} (get : s.dps[i]? = some r) (live : r.state ≠ .silent)
    (late : due r.deadline s.clock = true) :
    opSilence i s = ((s.silentDp i r).disturbDp i .silent).raise .dpSilent ⟨.dp, i⟩ (s.dpClass i) := by
  have reached : r.silenceDue s.clock = true := by simp [DpRec.silenceDue, live, late]
  simp only [opSilence, get, reached]
  rfl

/-- What a silence leaves: the record SILENT, the sections of the DP DISTURBED, nothing else of detection changed. -/
theorem silence_reached {s : State} {i : Nat} {r : DpRec} (get : s.dps[i]? = some r) (live : r.state ≠ .silent)
    (late : due r.deadline s.clock = true) (idle : NoActivation s) : Reaches (.dpSilenceDeadline i) s fun t =>
      DetectFrame s t ∧ t.heads = s.heads ∧ t.us = s.us ∧
      t.dps[i]? = some { r with state := .silent, deadline := none } ∧ (∀ j, j ≠ i → t.dps[j]? = s.dps[j]?) ∧
      ∀ (j : Nat) (e : SectionEntry) (x : SectRec), s.sectTable[j]? = some e → s.sects[j]? = some x →
        t.sects[j]? = some (if boundedBy i e then x.disturb s.clock .silent 0 0 else x) := by
  have disturbed := disturbDp_only (s.silentDp i r) i .silent
  have raised := raise_only ((s.silentDp i r).disturbDp i .silent) .dpSilent ⟨.dp, i⟩ (s.dpClass i)
  have only := disturbed.trans raised.track
  obtain ⟨store, us, dps, heads⟩ := only.records
  rw [← opSilence_of_due get live late] at raised only store us dps heads
  have ended := (finish_frame (opSilence i s)).1.frame
  refine ⟨_, completes_of_idle (by rw [store]; exact idle), ?_⟩
  obtain ⟨us', dps', sects'⟩ := ended.tracks
  rw [ended.heads, us', dps', sects', heads, us, dps, raised.sects]
  refine ⟨((setDp_count s i _).trans only.count).frame.trans ended.detect, rfl, rfl, dps_setDp_same get _,
    fun j other => dps_setDp_other get _ other, fun j e x entry record => ?_⟩
  exact disturbDp_sects (s.silentDp i r) i .silent entry record

/-- Settles O32: the deadline by its test, the two events by the section event they are, the reports by their sections. -/
theorem dpSilenceDisturbsItsSections : Obligations.DpSilenceDisturbsItsSections := by
  refine ⟨fun i r s get => ⟨fun early => ?_, fun cls bounds => ⟨dpClass_of_bounds bounds, fun live late => ?_⟩,
    silence_reached get⟩, fun i dInc dDec cause s unproved event closed told => ?_, fun s code src cls l =>
      ⟨rfl, report_cons s _ l, report_cons s _ l, report_cons s _ l⟩,
    fun unproved table old new j e x y acts made entry hx hy cls => ?_⟩
  · show Host.Outcome.next (State.settle (opSilence i s)) = _
    rw [opSilence_of_early get early]
  · show Host.Outcome.next (State.settle (opSilence i s)) = _
    rw [opSilence_of_due get live late, dpClass_of_bounds bounds]
    rfl
  · have same : unproved = !s.crossing.state.isClosed :=
      Bool.eq_iff_iff.2 (by rw [← Bool.not_eq_false, ← Bool.not_eq_false, closed, not_isClosed_iff])
    subst same
    refine ⟨_, _, (told (zipWithList _ s.sectTable s.sects)).symm, (told (zipWithList _ s.sectTable s.sects)).symm, ?_⟩
    exact fun j e x entry get => ⟨zipWithList_getElem? _ entry get, zipWithList_getElem? _ entry get⟩
  · subst made
    refine ⟨?_, ?_, ?_⟩
    · rw [mem_sectEventActs_of_source entry hx hy fun k e x y mem => (raise_mem_sectActs.1 mem).2.1, raise_mem_sectActs]
      simp [sectClass, and_assoc]
    · rw [mem_sectEventActs_of_source entry hx hy fun k e x y mem => (clear_mem_sectActs.1 mem).2, clear_mem_sectActs,
        doubtful_iff]
      simp
    · rw [mem_sectEventActs_of_source entry hx hy fun k e x y mem => (moment_mem_sectActs.1 mem).2.1, moment_mem_sectActs]
      simp [and_assoc]

end Sys2Proof.Machine

namespace Sys2Proof.Machine

open Sys2Proof

/-! ### A COUNT by the state of its record (R54 to R64) -/

theorem modifyAt_modifyAt {α : Type} (l : List α) (i : Nat) (f g : α → α) :
    modifyAt (modifyAt l i f) i g = modifyAt l i (g ∘ f) := by
  induction l generalizing i with
  | nil => rfl
  | cons x l ih =>
    cases i with
    | zero => rfl
    | succ n => exact congrArg (x :: ·) (ih n)

/-- Of two entries of a record the later stands. -/
theorem setDp_setDp (s : State) (i : Nat) (a b : DpRec) : (s.setDp i a).setDp i b = s.setDp i b :=
  congrArg (fun l => { s with dps := l }) (modifyAt_modifyAt s.dps i (fun _ => a) fun _ => b)

/-- A clear and the entry of a record do not meet. -/
theorem clear_setDp (s : State) (i : Nat) (r : DpRec) (c : FaultCode) (src : FaultSource) :
    (s.setDp i r).clear c src = (s.clear c src).setDp i r := rfl

/-- The record with a telegram entered as its baseline, all but the restarted flag (R54, R55). -/
def DpRec.entered (d : Delivery) (silence : Nat) (r : DpRec) : DpRec :=
  { r with baseline := true, seq := d.body.seq, inc := d.body.inc, dec := d.body.dec, health := d.body.health, port := d.port,
           lastTime := d.arrival, deadline := some (after d.arrival silence) }

section Deliver

variable {s : State} {i : Nat} {d : Delivery} {r : DpRec} (get : s.dps[i]? = some r)
include get

theorem deliver_of_duplicate (base : r.baseline = true) (seq : d.body.seq = r.seq) : s.deliver i d = s := by
  have dup : r.duplicate d = true := by simp [DpRec.duplicate, base, seq]
  simp only [State.deliver, State.deliverBy, get, dup, if_true]

/-- The first telegram of a record (R55). -/
theorem deliver_of_first (first : r.baseline = false) :
    s.deliver i d = s.dpBaseline i d r.state (r.accepted d s.silence) := by
  have new : r.duplicate d = false := by simp [DpRec.duplicate, first]
  simp only [State.deliver, State.deliverBy, get, new, first]
  rfl

/-- A telegram that says the head has failed (R56). -/
theorem deliver_of_failed (base : r.baseline = true) (seq : d.body.seq ≠ r.seq) (failed : d.body.health = .failed) :
    s.deliver i d = s.dpFailed i r.state ((r.accepted d s.silence).based d) := by
  have new : r.duplicate d = false := by simp [DpRec.duplicate, seq]
  have kept : (r.accepted d s.silence).baseline = true := base
  simp only [State.deliver, State.deliverBy, get, new, base, failed, if_true]
  rfl

section Counted

variable (base : r.baseline = true) (seq : d.body.seq ≠ r.seq) (healthy : d.body.health ≠ .failed)
include base seq healthy

/-- A further telegram with health OK or DEGRADED is counted, after the clears of a return (R57 to R64). -/
theorem deliver_of_live (live : r.state = .live) :
    s.deliver i d = s.dpCountBy State.swapIfDue i d true r.restart (r.accepted d s.silence) := by
  have new : r.duplicate d = false := by simp [DpRec.duplicate, seq]
  have same : { r.accepted d s.silence with state := .live } = r.accepted d s.silence := by rw [← live]; rfl
  simp only [State.deliver, State.deliverBy, get, new, base, healthy, live, same]
  rfl

theorem deliver_of_return (failed : r.state = .failed) : s.deliver i d =
    State.dpCountBy State.swapIfDue
      ((s.setDp i { r.accepted d s.silence with state := .live }).clear .dpHeadFailed (dpSource i)) i d true r.restart
      { r.accepted d s.silence with state := .live } := by
  have new : r.duplicate d = false := by simp [DpRec.duplicate, seq]
  simp only [State.deliver, State.deliverBy, get, new, base, healthy, failed]
  rfl

theorem deliver_of_silent (silent : r.state = .silent) : s.deliver i d =
    State.dpCountBy State.swapIfDue
      (((s.setDp i { r.accepted d s.silence with state := .live }).clear .dpSilent (dpSource i)).clear .dpHeadFailed
        (dpSource i)) i d false r.restart { r.accepted d s.silence with state := .live } := by
  have new : r.duplicate d = false := by simp [DpRec.duplicate, seq]
  simp only [State.deliver, State.deliverBy, get, new, base, healthy, silent]
  rfl

end Counted

end Deliver

/-! ### Counting (R57 to R61) -/

section Counting

variable {told : State → State} {s : State} {i : Nat} {d : Delivery} {timed handled : Bool} {r : DpRec}

/-- The count enters the record afresh: what stood in it does not matter. -/
theorem dpCount_setDp (a : DpRec) :
    (s.setDp i a).dpCountBy told i d timed handled r = s.dpCountBy told i d timed handled r := by
  simp only [State.dpCountBy, State.dpPlausibleBy, setDp_setDp]

/-- A return from silence counts as a telegram without an event time (R64). -/
theorem dpCount_untimed :
    s.dpCountBy told i d false handled r = s.dpCountBy told i { d with event := none } true handled r := by
  simp only [State.dpCountBy, State.dpPlausibleBy, Bool.false_and, ite_self]
  rfl

/-- A restart with changed counters (R57). -/
theorem dpCount_of_restart (restarted : d.body.restarted = true) (new : handled = false)
    (changed : d.body.inc ≠ r.inc ∨ d.body.dec ≠ r.dec) : s.dpCountBy told i d timed handled r =
      ((s.setDp i { r.based d with restart := true }).disturbDp i .restart).momentary .dpRestarted (dpSource i) .info := by
  have told : (d.body.restarted && !handled && (decide (d.body.inc ≠ r.inc) || decide (d.body.dec ≠ r.dec))) = true := by
    simpa [restarted, new] using changed
  unfold State.dpCountBy
  dsimp only
  rw [if_pos told, restarted]
  rfl

/-- A restart with equal counters, or none to be handled (R57). -/
def RestartQuiet (d : Delivery) (handled : Bool) (r : DpRec) : Prop :=
  (d.body.restarted && !handled) = true → d.body.inc = r.inc ∧ d.body.dec = r.dec

theorem dpCount_of_quiet (quiet : RestartQuiet d handled r) : s.dpCountBy told i d timed handled r =
    if maxDelta < wrapDelta 4096 d.body.inc r.inc ∨ maxDelta < wrapDelta 4096 d.body.dec r.dec then
      (s.setDp i { r.based d with restart := d.body.restarted }).disturbDp i .implausible
    else s.dpPlausibleBy told i d timed (d.body.restarted && !handled) (wrapDelta 4096 d.body.inc r.inc)
      (wrapDelta 4096 d.body.dec r.dec) { r with restart := d.body.restarted } := by
  unfold State.dpCountBy
  dsimp only
  refine if_neg fun both => ?_
  obtain ⟨restarts, changed⟩ := (Bool.and_eq_true _ _).mp both
  obtain ⟨inc, dec⟩ := quiet restarts
  simp [inc, dec] at changed

/-- The telegrams missed before this one (R59). -/
def DpRec.gap (d : Delivery) (r : DpRec) : Nat := (d.body.seq - r.seq - 1).toNat

theorem gap_eq (d : Delivery) (r : DpRec) :
    wrapDelta 256 d.body.seq.toNat ((r.seq.toNat + 1) % 256) = r.gap d := by
  unfold wrapDelta DpRec.gap
  have := d.body.seq.isLt
  have := r.seq.isLt
  have one : (1 : Byte).toNat = 1 := rfl
  rw [BitVec.toNat_sub, BitVec.toNat_sub, one]
  omega

theorem gap_eq_zero_iff (d : Delivery) (r : DpRec) : r.gap d = 0 ↔ d.body.seq = r.seq + 1 := by
  unfold DpRec.gap
  constructor
  · intro zero
    bv_omega
  · intro next
    rw [next]
    bv_omega

/-- A plausible telegram: the gap counted, and its axles handed on, timed where no telegram is missed (R59, R60, R61). -/
theorem dpPlausible_eq {dInc dDec : Nat} : s.dpPlausibleBy told i d true false dInc dDec r =
    if dInc = 0 ∧ dDec = 0 then s.setDp i { r.based d with missed := min 65535 (r.missed + r.gap d) }
    else (s.setDp i { r.based d with
        missed := min 65535 (r.missed + r.gap d), deltaInc := dInc, deltaDec := dDec,
        lastEvent := if r.gap d = 0 then d.event else none }).handOnBy told i dInc dDec
      (if r.gap d = 0 then d.event else none) := by
  unfold State.dpPlausibleBy
  simp only [Bool.false_eq_true, if_false, gap_eq, Bool.true_and, decide_eq_true_eq]
  rfl

/-- The telegram that reveals a restart with equal counters is only entered (R57). -/
theorem dpPlausible_renumbered : s.dpPlausibleBy told i d timed true 0 0 r =
    s.setDp i { r.based d with missed := min 65535 r.missed } := rfl

end Counting

theorem wrapDelta_eq {n m : Nat} (h : m < 4096) : wrapDelta 4096 n m = (n + (4096 - m)) % 4096 := by
  rw [wrapDelta, Nat.mod_eq_of_lt h]

theorem wrapDelta_same {n m : Nat} (h : m < 4096) (same : n = m) : wrapDelta 4096 n m = 0 := by
  rw [wrapDelta_eq h]
  omega

end Sys2Proof.Machine

namespace Sys2Proof.Machine

open Sys2Proof

/-! ### Passages (R61, R89, R109; log 51) -/

theorem keepsDp_iff (e o : DpEntry) : keepsDp e o = true ↔ sameDp o e = true ∧ o.side = e.side ∧ o.track = e.track := by
  simp [keepsDp, and_assoc]

theorem handPassage_of_index {s : State} {old : List DpEntry} {i j : Nat} (index : dpIndexNow old s.dpTable i = some j)
    (dir : CountDir) (ev : Option Time) : s.handPassage old i dir ev = s.passage j dir ev := by
  simp only [State.handPassage, index]

theorem handPassage_of_none {s : State} {old : List DpEntry} {i : Nat} (index : dpIndexNow old s.dpTable i = none)
    (dir : CountDir) (ev : Option Time) : s.handPassage old i dir ev = s := by
  simp only [State.handPassage, index]

theorem dpIndexNow_same (l : List DpEntry) (i : Nat) : dpIndexNow l l i = some i := if_pos rfl

/-- After a swap the DP has the first index whose entry keeps its record (R22). -/
theorem dpIndexNow_of_kept {old new : List DpEntry} (swapped : old ≠ new) {i j : Nat} {o e : DpEntry} (was : old[i]? = some o)
    (now : new[j]? = some e) (kept : keepsDp e o = true)
    (first : ∀ (k : Nat) (y : DpEntry), k < j → new[k]? = some y → keepsDp y o = false) :
    dpIndexNow old new i = some j := by
  unfold dpIndexNow
  rw [if_neg swapped, was]
  exact indexWhere_eq_some.2 ⟨j, e, (Nat.zero_add j).symm, now, kept, first⟩

theorem dpIndexNow_of_dropped {old new : List DpEntry} (swapped : old ≠ new) {i : Nat}
    (dropped : ∀ o, old[i]? = some o → ∀ e ∈ new, keepsDp e o = false) : dpIndexNow old new i = none := by
  unfold dpIndexNow
  rw [if_neg swapped]
  cases was : old[i]? with
  | none => rfl
  | some o => exact indexWhere_eq_none.2 (dropped o was)

/-- What one demand makes of a passage: its own step where its timing list has the DP and the direction is its own (R89). -/
def DemandCtx.offered (dp : Nat) (dir : CountDir) (ev : Option Time) (c : DemandCtx) (x : DemandRec) : DemandStep :=
  match positionOf c.entry dp with
  | none => (x, [])
  | some j => if dir = c.entry.dir then c.passage j ev x else (x, [])

theorem passage_eq (s : State) (dp : Nat) (dir : CountDir) (ev : Option Time) :
    s.passage dp dir ev = (s.eachDemand (DemandCtx.offered dp dir ev)).tell := rfl

theorem offered_elsewhere {dp : Nat} {dir : CountDir} {c : DemandCtx}
    (h : dir ≠ c.entry.dir ∨ ∀ b ∈ c.entry.points, b.dp ≠ dp) (ev : Option Time) (x : DemandRec) :
    c.offered dp dir ev x = (x, []) := by
  unfold DemandCtx.offered
  cases position : positionOf c.entry dp with
  | none => rfl
  | some j =>
    obtain ⟨k, b, -, there, here, -⟩ := indexWhere_eq_some.1 position
    rcases h with other | absent
    · exact if_neg other
    · exact absurd (of_decide_eq_true here) (absent b (List.mem_of_getElem? there))

theorem offered_at {dp j : Nat} {dir : CountDir} {c : DemandCtx} {b : TimingPoint} (own : dir = c.entry.dir)
    (point : c.entry.points[j]? = some b) (here : b.dp = dp)
    (first : ∀ (k : Nat) (o : TimingPoint), k < j → c.entry.points[k]? = some o → o.dp ≠ dp) (ev : Option Time)
    (x : DemandRec) : c.offered dp dir ev x = c.passage (j + 1) ev x := by
  have position : positionOf c.entry dp = some (j + 1) :=
    indexWhere_eq_some.2 ⟨j, b, Nat.add_comm j 1, point, decide_eq_true here, fun k o before there =>
      decide_eq_false (first k o before there)⟩
  unfold DemandCtx.offered
  rw [position]
  exact if_pos own

/-- The steps of the demands under one rule, each with its approach. -/
def State.demandSteps (s : State) (p : Plan) (f : DemandCtx → DemandRec → DemandStep) : List DemandStep :=
  zipWithList (fun ia d => f (s.ctx p ia.1 ia.2) d) (indexed 0 p.approaches) s.demands

theorem eachDemand_of_plan {s : State} {p : Plan} (plan : s.store.plan = some p) (f : DemandCtx → DemandRec → DemandStep) :
    s.eachDemand f = State.report { s with demands := (s.demandSteps p f).map (·.1) }
      ((s.demandSteps p f).map (·.2)).flatten := by
  unfold State.eachDemand
  rw [plan]
  rfl

theorem eachDemand_of_noPlan {s : State} (plan : s.store.plan = none) (f : DemandCtx → DemandRec → DemandStep) :
    s.eachDemand f = s := by
  unfold State.eachDemand
  rw [plan]

theorem length_demandSteps (s : State) (p : Plan) (f : DemandCtx → DemandRec → DemandStep) :
    (s.demandSteps p f).length = min p.approaches.length s.demands.length := by
  rw [State.demandSteps, length_zipWithList, length_indexed]

theorem demandSteps_at {s : State} {p : Plan} {n : Nat} {a : ApproachEntry} {x : DemandRec}
    (approach : p.approaches[n]? = some a) (demand : s.demands[n]? = some x) (f : DemandCtx → DemandRec → DemandStep) :
    (s.demandSteps p f)[n]? = some (f (s.ctx p n a) x) := by
  refine zipWithList_getElem? _ (x := (n, a)) ?_ demand
  rw [indexed_getElem?, approach, Nat.zero_add]
  rfl

/-! ### The parts of O31 -/

/-- A passage reaches the demands of its direction whose timing list has the DP, and no other, and is told (R89, R109). -/
theorem passage_of_plan {s : State} {p : Plan} (plan : s.store.plan = some p) (i : Nat) (dir : CountDir) (ev : Option Time) :
    ∃ (new : List DemandRec) (acts : List (List FaultAct)),
      s.passage i dir ev = (State.report { s with demands := new } acts.flatten).tell ∧
      new.length = min p.approaches.length s.demands.length ∧ acts.length = new.length ∧
      ∀ (n : Nat) (a : ApproachEntry) (x : DemandRec), p.approaches[n]? = some a → s.demands[n]? = some x →
        (dir ≠ a.dir ∨ (∀ b ∈ a.points, b.dp ≠ i) → new[n]? = some x ∧ acts[n]? = some []) ∧
        ∀ (j : Nat) (b : TimingPoint) (c : DemandCtx), dir = a.dir → a.points[j]? = some b → b.dp = i →
          (∀ (k : Nat) (o : TimingPoint), k < j → a.points[k]? = some o → o.dp ≠ i) →
          c = ⟨s.clock, p, a, n, sightOf p a s.sects⟩ →
          new[n]? = some (c.passage (j + 1) ev x).1 ∧ acts[n]? = some (c.passage (j + 1) ev x).2 := by
  refine ⟨(s.demandSteps p (DemandCtx.offered i dir ev)).map (·.1),
    (s.demandSteps p (DemandCtx.offered i dir ev)).map (·.2), ?_, ?_, ?_, fun n a x approach demand => ?_⟩
  · rw [passage_eq, eachDemand_of_plan plan]
  · rw [List.length_map, length_demandSteps]
  · rw [List.length_map, List.length_map]
  · rw [List.getElem?_map, List.getElem?_map, demandSteps_at approach demand]
    refine ⟨fun elsewhere => ?_, fun j b c own point here first ctx => ?_⟩
    · rw [offered_elsewhere (c := s.ctx p n a) elsewhere]
      exact ⟨rfl, rfl⟩
    · subst ctx
      rw [offered_at (c := s.ctx p n a) own point here first]
      exact ⟨rfl, rfl⟩

/-- A passage of a COUNT acts under the plan in force for the DP whose record that plan keeps, else it is dropped (log 51). -/
theorem handPassage_by_plan (s : State) (i : Nat) (old : List DpEntry) (dir : CountDir) (ev : Option Time)
    {keeps : DpEntry → DpEntry → Prop}
    (kept : ∀ o e, keeps o e ↔ sameDp o e = true ∧ o.side = e.side ∧ o.track = e.track) :
    (old = s.dpTable → s.handPassage old i dir ev = s.passage i dir ev) ∧
    (old ≠ s.dpTable →
      (∀ (j : Nat) (o e : DpEntry), old[i]? = some o → s.dpTable[j]? = some e → keeps o e →
        (∀ (k : Nat) (y : DpEntry), k < j → s.dpTable[k]? = some y → ¬ keeps o y) →
        s.handPassage old i dir ev = s.passage j dir ev) ∧
      ((∀ o, old[i]? = some o → ∀ e ∈ s.dpTable, ¬ keeps o e) → s.handPassage old i dir ev = s)) := by
  have same (o e : DpEntry) : keepsDp e o = true ↔ keeps o e := (keepsDp_iff e o).trans (kept o e).symm
  have differ {o e : DpEntry} (no : ¬ keeps o e) : keepsDp e o = false := Bool.eq_false_iff.2 fun yes => no ((same o e).1 yes)
  refine ⟨fun standing => ?_, fun swapped => ⟨fun j o e was now keep first => ?_, fun dropped => ?_⟩⟩
  · subst standing
    exact handPassage_of_index (dpIndexNow_same _ i) dir ev
  · exact handPassage_of_index (dpIndexNow_of_kept swapped was now ((same o e).2 keep) fun k y before there =>
      differ (first k y before there)) dir ev
  · exact handPassage_of_none (dpIndexNow_of_dropped swapped fun o was e mem => differ (dropped o was e mem)) dir ev

/-- A first telegram that does not say FAILED is the baseline of a LIVE record, and clears the faults of the DP (R55, R65). -/
theorem deliver_of_baseline {s : State} {i : Nat} {d : Delivery} {r : DpRec} (get : s.dps[i]? = some r)
    (first : r.baseline = false) (healthy : d.body.health ≠ .failed) : s.deliver i d =
      ((s.setDp i { r.entered d s.silence with state := .live, restart := d.body.restarted }).clearSilent i r.state).clear
        .dpHeadFailed (dpSource i) := by
  rw [deliver_of_first get first, State.dpBaseline, if_neg healthy]
  rfl

/-- A telegram that says FAILED: the record FAILED, and the fault of an entry to it (R56, R65). -/
theorem deliver_of_headFailed {s : State} {i : Nat} {d : Delivery} {r : DpRec} (get : s.dps[i]? = some r)
    (failed : d.body.health = .failed) (new : r.baseline = false ∨ d.body.seq ≠ r.seq) :
    s.deliver i d = s.dpFailed i r.state { r.entered d s.silence with
      restart := if r.baseline then r.restart && d.body.restarted else d.body.restarted } := by
  cases base : r.baseline with
  | false =>
    rw [deliver_of_first get base, State.dpBaseline, if_pos failed]
    rfl
  | true =>
    have seq := new.resolve_left (by rw [base]; exact nofun)
    rw [deliver_of_failed get base seq failed]
    rfl

section Live

variable {s : State} {i : Nat} {d : Delivery} {r : DpRec} (get : s.dps[i]? = some r) (live : r.state = .live)
  (base : r.baseline = true) (seq : d.body.seq ≠ r.seq) (healthy : d.body.health ≠ .failed)
include get live base seq healthy

theorem deliver_of_restart (restarted : d.body.restarted = true) (new : r.restart = false)
    (changed : d.body.inc ≠ r.inc ∨ d.body.dec ≠ r.dec) : s.deliver i d =
      ((s.setDp i { r.entered d s.silence with restart := true }).disturbDp i .restart).momentary .dpRestarted (dpSource i)
        .info := by
  exact (deliver_of_live get base seq healthy live).trans (dpCount_of_restart restarted new changed)

theorem deliver_of_equal_restart (inc : r.inc < 4096) (dec : r.dec < 4096) (restarted : d.body.restarted = true)
    (new : r.restart = false) (sameInc : d.body.inc = r.inc) (sameDec : d.body.dec = r.dec) :
    s.deliver i d = s.setDp i { r.entered d s.silence with restart := true, missed := min 65535 r.missed } := by
  have unmovedInc : wrapDelta 4096 d.body.inc (r.accepted d s.silence).inc = 0 := wrapDelta_same inc sameInc
  have unmovedDec : wrapDelta 4096 d.body.dec (r.accepted d s.silence).dec = 0 := wrapDelta_same dec sameDec
  have plausible : ¬(maxDelta < 0 ∨ maxDelta < 0) := by decide
  rw [deliver_of_live get base seq healthy live, dpCount_of_quiet (r := r.accepted d s.silence) fun _ => ⟨sameInc, sameDec⟩,
    unmovedInc, unmovedDec, if_neg plausible, restarted, new]
  exact dpPlausible_renumbered

section Handled

variable (handled : d.body.restarted = false ∨ r.restart = true)
include handled

/-- A telegram with no restart to be handled: implausible, or its gap counted and its axles handed on (R58 to R61). -/
theorem deliver_of_handled : s.deliver i d =
    if maxDelta < wrapDelta 4096 d.body.inc r.inc ∨ maxDelta < wrapDelta 4096 d.body.dec r.dec then
      (s.setDp i { r.entered d s.silence with restart := d.body.restarted }).disturbDp i .implausible
    else s.dpPlausibleBy State.swapIfDue i d true false (wrapDelta 4096 d.body.inc r.inc) (wrapDelta 4096 d.body.dec r.dec)
      { r.accepted d s.silence with restart := d.body.restarted } := by
  have none : (d.body.restarted && !r.restart) = false := by
    rcases handled with clear | done
    · rw [clear]; rfl
    · rw [done, Bool.not_true, Bool.and_false]
  rw [deliver_of_live get base seq healthy live, dpCount_of_quiet fun some => absurd (none.symm.trans some) nofun, none]
  rfl

/-- A plausible one (R59 to R61). -/
theorem deliver_of_plausible {dInc dDec : Nat} (hInc : wrapDelta 4096 d.body.inc r.inc = dInc)
    (hDec : wrapDelta 4096 d.body.dec r.dec = dDec) (inc : dInc ≤ 512) (dec : dDec ≤ 512) : s.deliver i d =
    if dInc = 0 ∧ dDec = 0 then s.setDp i { r.entered d s.silence with
      restart := d.body.restarted, missed := min 65535 (r.missed + r.gap d) }
    else (s.setDp i { r.entered d s.silence with
      restart := d.body.restarted, missed := min 65535 (r.missed + r.gap d), deltaInc := dInc, deltaDec := dDec,
      lastEvent := if r.gap d = 0 then d.event else none }).handOn i dInc dDec (if r.gap d = 0 then d.event else none) := by
  have plausible : ¬(maxDelta < dInc ∨ maxDelta < dDec) := not_or.2 ⟨Nat.not_lt.2 inc, Nat.not_lt.2 dec⟩
  rw [deliver_of_handled get live base seq healthy handled, hInc, hDec, if_neg plausible, dpPlausible_eq]
  rfl

end Handled

end Live

/-- A return counts as the record made LIVE would, once its faults are cleared (R62). -/
theorem deliver_of_returned {t : State} {i : Nat} {d e : Delivery} {r : DpRec}
    (live : t.dps[i]? = some { r with state := .live })
    (base : r.baseline = true) (seq : d.body.seq ≠ r.seq) (healthy : d.body.health ≠ .failed) (body : e.body = d.body) :
    t.deliver i e = t.dpCountBy State.swapIfDue i e true r.restart { r.accepted e t.silence with state := .live } :=
  deliver_of_live live base (body ▸ seq) (body ▸ healthy) rfl

section Return

variable {s : State} {i : Nat} {d : Delivery} {r : DpRec} (get : s.dps[i]? = some r) (base : r.baseline = true)
  (seq : d.body.seq ≠ r.seq) (healthy : d.body.health ≠ .failed)
include get base seq healthy

/-- A return from FAILED clears the fault of the head, and counts (R62). -/
theorem deliver_from_failed (failed : r.state = .failed) : s.deliver i d =
    State.deliver ((s.setDp i { r with state := .live }).clear .dpHeadFailed (dpSource i)) i d := by
  have live := dps_setDp_same get { r with state := .live }
  rw [deliver_of_return get base seq healthy failed,
    deliver_of_returned (t := (s.setDp i _).clear _ _) live base seq healthy rfl]
  simp only [clear_setDp, dpCount_setDp]
  rfl

/-- A return from SILENT clears both faults of the DP, and counts untimed (R62, R64). -/
theorem deliver_from_silent (silent : r.state = .silent) : s.deliver i d = State.deliver
    (((s.setDp i { r with state := .live }).clear .dpSilent (dpSource i)).clear .dpHeadFailed (dpSource i)) i
    { d with event := none } := by
  have live := dps_setDp_same get { r with state := .live }
  rw [deliver_of_silent get base seq healthy silent,
    deliver_of_returned (t := ((s.setDp i _).clear _ _).clear _ _) (e := { d with event := none }) live base seq healthy rfl]
  simp only [clear_setDp, dpCount_setDp, dpCount_untimed]
  rfl

end Return

/-- With no activation waiting the passages leave the sections as the count of the DP leaves them (R61, R75). -/
theorem handOn_sects {s : State} (idle : NoActivation s) (i a b : Nat) (ev : Option Time) :
    (s.handOn i a b ev).sects = (s.countDelta i a b).sects := by
  rw [handOn_of_idle idle]
  dsimp only
  split <;> split
  · rfl
  · exact passage_sects _ _ _ _
  · exact passage_sects _ _ _ _
  · exact (passage_sects _ _ _ _).trans (passage_sects _ _ _ _)

theorem ne_of_next {a b : Byte} (next : a = b + 1) : a ≠ b := by
  rw [next]
  bv_omega

/-- A plausible COUNT, next in sequence, as the records show it: the baseline entered, the axles in the sections (R54, R58 to
R61, R75). -/
theorem deliver_enters {s : State} {i : Nat} {d : Delivery} {r : DpRec} (get : s.dps[i]? = some r) (live : r.state = .live)
    (base : r.baseline = true) (next : d.body.seq = r.seq + 1) (healthy : d.body.health ≠ .failed)
    (handled : d.body.restarted = false ∨ r.restart = true) {dInc dDec : Nat} (hInc : wrapDelta 4096 d.body.inc r.inc = dInc)
    (hDec : wrapDelta 4096 d.body.dec r.dec = dDec) (inc : dInc ≤ 512) (dec : dDec ≤ 512) (idle : NoActivation s) :
    (s.deliver i d).dps[i]? = some { r.entered d s.silence with
      restart := d.body.restarted, missed := min 65535 r.missed,
      deltaInc := if dInc = 0 ∧ dDec = 0 then r.deltaInc else dInc,
      deltaDec := if dInc = 0 ∧ dDec = 0 then r.deltaDec else dDec,
      lastEvent := if dInc = 0 ∧ dDec = 0 then r.lastEvent else d.event } ∧
    ∀ (j : Nat) (e : SectionEntry) (x : SectRec), s.sectTable[j]? = some e → s.sects[j]? = some x →
      (s.deliver i d).sects[j]? = some (if dInc = 0 ∧ dDec = 0 then x else x.takenFrom s.clock i dInc dDec e) := by
  rw [deliver_of_plausible get live base (ne_of_next next) healthy handled hInc hDec inc dec]
  simp only [(gap_eq_zero_iff d r).2 next, Nat.add_zero, if_true]
  by_cases none : dInc = 0 ∧ dDec = 0
  · simp only [if_pos none]
    exact ⟨dps_setDp_same get _, fun j e x _ record => record⟩
  · simp only [if_neg none]
    constructor
    · rw [(handOn_only _ i dInc dDec d.event).records.2.2.1]
      · exact dps_setDp_same get _
      · exact idle
    · intro j e x entry record
      rw [handOn_sects]
      · exact countDelta_sects (s.setDp i _) i dInc dDec entry record
      · exact idle

/-- Settles O31: each state of the record by its own lemma, then the events that hand the axles on. -/
theorem deliveredCountsReachTheSections : Obligations.DeliveredCountsReachTheSections := by
  intro i dInc dDec d r s get hInc hDec inc dec
  have hInc : wrapDelta 4096 d.body.inc r.inc = dInc := (wrapDelta_eq inc).trans hInc.symm
  have hDec : wrapDelta 4096 d.body.dec r.dec = dDec := (wrapDelta_eq dec).trans hDec.symm
  refine ⟨deliver_of_duplicate get, ?entered, ?handedOn, ?handedOnIdle, fun old dir ev keeps kept =>
    handPassage_by_plan s i old dir ev kept, fun dir ev => ⟨fun plan => ?unplanned, fun p plan =>
      passage_of_plan plan i dir ev⟩, ?byState⟩
  case entered =>
    intro live base next healthy handled le le' idle
    obtain ⟨record, sects⟩ := deliver_enters get live base next healthy handled hInc hDec le le' idle
    rw [record, DpRec.entered, base]
    exact ⟨rfl, sects⟩
  case handedOn =>
    intro ev u v hu hv
    subst hu hv
    rfl
  case handedOnIdle =>
    intro ev u v idle hu hv
    subst hu hv
    exact handOn_of_idle idle i dInc dDec ev
  case unplanned => rw [passage_eq, eachDemand_of_noPlan plan]
  case byState =>
    intro q hq
    obtain rfl : q = r.entered d s.silence := hq
    refine ⟨?baseline, ?next, ?headFailed, fun live base seq healthy => ⟨fun restarted new => ⟨?restart, ?equalRestart⟩,
      fun handled => ⟨?implausible, ?gap⟩⟩, fun base seq healthy =>
        ⟨deliver_from_failed get base seq healthy, deliver_from_silent get base seq healthy⟩⟩
    case baseline =>
      intro first healthy u hu
      subst hu
      exact deliver_of_baseline get first healthy
    case next =>
      intro live base next healthy handled le le'
      rw [deliver_of_plausible get live base (ne_of_next next) healthy handled hInc hDec le le']
      simp only [(gap_eq_zero_iff d r).2 next, Nat.add_zero, if_true]
      exact ⟨fun a b => if_pos ⟨a, b⟩, fun some => if_neg (by omega)⟩
    case headFailed =>
      intro failed new u v hu hv
      subst hu hv
      exact deliver_of_headFailed get failed new
    case restart => exact deliver_of_restart get live base seq healthy restarted new
    case equalRestart => exact deliver_of_equal_restart get live base seq healthy inc dec restarted new
    case implausible =>
      intro far
      rw [deliver_of_handled get live base seq healthy handled, hInc, hDec]
      exact if_pos far
    case gap =>
      intro le le' gapped gap hgap
      subst hgap
      have behind : r.gap d ≠ 0 := fun zero => gapped ((gap_eq_zero_iff d r).1 zero)
      rw [deliver_of_plausible get live base seq healthy handled hInc hDec le le']
      simp only [if_neg behind]
      exact ⟨fun a b => if_pos ⟨a, b⟩, fun some => if_neg (by omega)⟩

end Sys2Proof.Machine

namespace Sys2Proof.Machine

open Sys2Proof

/-! ### A delta in each state of a section (R75, R76, R80, R83) -/

section Delta

variable {r : SectRec} {now : Time} {axIn axOut : Nat}

theorem take_of_counting (state : r.state = .clear ∨ r.state = .occupied) :
    r.take now axIn axOut = r.counted now axIn axOut := by
  rcases state with clear | occupied
  · simp only [SectRec.take, clear]
  · simp only [SectRec.take, occupied]

theorem take_of_disturbed (state : r.state = .disturbed) : r.take now axIn axOut = r.totalled axIn axOut := by
  simp only [SectRec.take, state]

theorem take_of_restoring (state : r.state = .restoring) : r.take now axIn axOut = r.swept now axIn axOut := by
  simp only [SectRec.take, state]

theorem counted_of_negative (h : r.count + axIn < axOut) :
    r.counted now axIn axOut = r.disturb now .negative axIn axOut := if_pos h

theorem counted_of_overflow (h : axOut + 999 < r.count + axIn) :
    r.counted now axIn axOut = r.disturb now .overflow axIn axOut :=
  (if_neg (by omega)).trans (if_pos (by omega))

theorem counted_of_zero (h : r.count + axIn = axOut) :
    r.counted now axIn axOut = { r with state := .clear, count := 0 } :=
  (if_neg (by omega)).trans ((if_neg (by omega)).trans (if_pos (by omega)))

theorem counted_of_positive {n : Nat} (h : r.count + axIn = axOut + n) (low : 1 ≤ n) (high : n ≤ 999) :
    r.counted now axIn axOut = { r with state := .occupied, count := n } := by
  obtain rfl : r.count + axIn - axOut = n := by omega
  exact (if_neg (by omega)).trans ((if_neg (by omega)).trans (if_neg (by omega)))

theorem swept_of_negative (h : r.balance + axIn < axOut) :
    r.swept now axIn axOut = r.disturb now .negative axIn axOut := if_pos h

theorem swept_of_overflow (h : axOut + 999 < r.balance + axIn) :
    r.swept now axIn axOut = r.disturb now .overflow axIn axOut :=
  (if_neg (by omega)).trans (if_pos (by omega))

/-- The record of a sweep with a delta entered and its balance now `n`, before a look at whether it has balanced (R83). -/
def SectRec.sweepEntered (axIn axOut n : Nat) (r : SectRec) : SectRec :=
  { r.totalled axIn axOut with
    balance := n, entered := r.entered || decide (0 < axIn), left := r.left || decide (0 < axOut) }

theorem swept_of_within {n : Nat} (h : r.balance + axIn = axOut + n) (high : n ≤ 999) :
    r.swept now axIn axOut = (r.sweepEntered axIn axOut n).settled := by
  obtain rfl : r.balance + axIn - axOut = n := by omega
  exact (if_neg (by omega)).trans (if_neg (by omega))

theorem settled_of_balanced (entered : r.entered = true) (zero : r.balance = 0) :
    r.settled = { r with state := .clear, count := 0, restored := .sweep } := by
  rw [SectRec.settled, if_pos ⟨entered, zero⟩, ← zero]

theorem settled_of_unbalanced (h : r.entered = true → r.balance ≠ 0) : r.settled = r :=
  if_neg fun both => h both.1 both.2

end Delta

/-- Settles O36: each state by the operation that takes the delta, each result by the row of its table. -/
theorem sectionDeltasFollowTheTables : Obligations.SectionDeltasFollowTheTables := by
  intro now axIn axOut r
  refine ⟨fun state => ?_, fun state => ?_, take_of_disturbed⟩
  · rw [take_of_counting state]
    exact ⟨counted_of_negative, counted_of_overflow, counted_of_zero, fun n => counted_of_positive⟩
  · rw [take_of_restoring state]
    refine ⟨swept_of_negative, swept_of_overflow, fun n x sum high record => ?_⟩
    obtain rfl : x = r.sweepEntered axIn axOut n := record
    rw [swept_of_within sum high]
    refine ⟨fun zero entered => settled_of_balanced entered zero,
      fun unbalanced => settled_of_unbalanced fun entered zero => ?_⟩
    have positive := unbalanced.resolve_right (by rw [entered]; exact nofun)
    exact absurd zero (Nat.ne_of_gt positive)

/-! ### The law of one section (R74, R76, R83) -/

section Law

variable {r : SectRec}

theorem sectLaw_disturb (r : SectRec) (now : Time) (cause : SectCause) (axIn axOut : Nat) :
    SectLaw (r.disturb now cause axIn axOut) := ⟨nofun, fun _ => rfl, fun _ => rfl, nofun⟩

theorem sectLaw_fresh (now : Time) (cause : SectCause) : SectLaw (SectRec.fresh now cause) :=
  ⟨nofun, fun _ => rfl, fun _ => rfl, nofun⟩

theorem sectLaw_direct (r : SectRec) : SectLaw r.direct := ⟨nofun, fun _ => rfl, fun _ => rfl, nofun⟩

theorem sectLaw_sweep (r : SectRec) : SectLaw r.sweep :=
  ⟨nofun, fun _ => rfl, fun _ => rfl, fun _ => ⟨Nat.zero_le _, nofun, fun no => absurd no (Nat.lt_irrefl 0)⟩⟩

/-- The result of a count is below 0, 0, in 1 to 999, or above (R76). -/
theorem sectLaw_counted (balance : r.balance = 0) (now : Time) (axIn axOut : Nat) :
    SectLaw (r.counted now axIn axOut) := by
  rcases Nat.lt_or_ge (r.count + axIn) axOut with negative | known
  · rw [counted_of_negative negative]
    exact sectLaw_disturb r now _ _ _
  obtain ⟨n, sum⟩ := Nat.exists_eq_add_of_le known
  rcases Nat.eq_zero_or_pos n with rfl | positive
  · rw [counted_of_zero (axOut := axOut) sum]
    exact ⟨nofun, fun _ => rfl, fun _ => balance, nofun⟩
  rcases Nat.lt_or_ge 999 n with high | within
  · rw [counted_of_overflow (by omega)]
    exact sectLaw_disturb r now _ _ _
  · rw [counted_of_positive sum positive within]
    exact ⟨fun _ => ⟨positive, within⟩, fun other => absurd rfl other, fun _ => balance, nofun⟩

/-- A sweep whose result is within its range has balanced after an entry, or holds axles exactly if one has entered (R83). -/
theorem sectLaw_swept (law : SectLaw r) (state : r.state = .restoring) (now : Time) (axIn axOut : Nat) :
    SectLaw (r.swept now axIn axOut) := by
  obtain ⟨-, count, -, sweep⟩ := law
  obtain ⟨-, entered⟩ := sweep state
  have count : r.count = 0 := count (by rw [state]; exact nofun)
  rcases Nat.lt_or_ge (r.balance + axIn) axOut with negative | known
  · rw [swept_of_negative negative]
    exact sectLaw_disturb r now _ _ _
  obtain ⟨n, sum⟩ := Nat.exists_eq_add_of_le known
  rcases Nat.lt_or_ge 999 n with high | within
  · rw [swept_of_overflow (by omega)]
    exact sectLaw_disturb r now _ _ _
  rw [swept_of_within sum within]
  have seen : (r.sweepEntered axIn axOut n).entered = true ↔ 0 < r.balance ∨ 0 < axIn := by
    simp [SectRec.sweepEntered, entered]
  by_cases balanced : (r.sweepEntered axIn axOut n).entered = true ∧ n = 0
  · rw [settled_of_balanced balanced.1 balanced.2]
    exact ⟨nofun, fun _ => rfl, fun _ => balanced.2, nofun⟩
  · rw [settled_of_unbalanced fun entered zero => balanced ⟨entered, zero⟩]
    refine ⟨fun occupied => absurd (state.symm.trans occupied) nofun, fun _ => count, fun other => absurd state other,
      fun _ => ⟨within, fun entered => Nat.pos_of_ne_zero fun zero => balanced ⟨entered, zero⟩, fun positive => ?_⟩⟩
    have positive : 0 < n := positive
    exact seen.2 (by omega)

theorem sectLaw_take (law : SectLaw r) (now : Time) (axIn axOut : Nat) : SectLaw (r.take now axIn axOut) := by
  have ⟨_, _, idle, _⟩ := law
  cases state : r.state with
  | clear =>
    rw [take_of_counting (.inl state)]
    exact sectLaw_counted (idle (by rw [state]; exact nofun)) now axIn axOut
  | occupied =>
    rw [take_of_counting (.inr state)]
    exact sectLaw_counted (idle (by rw [state]; exact nofun)) now axIn axOut
  | disturbed =>
    rw [take_of_disturbed state]
    exact law
  | restoring =>
    rw [take_of_restoring state]
    exact sectLaw_swept law state now axIn axOut

end Law

end Sys2Proof.Machine

namespace Sys2Proof.Machine

open Sys2Proof

/-! ### The conditions of a restore (R81) -/

theorem stateAt_eq_clear_iff (sects : List SectRec) (i : Nat) :
    stateAt sects i = .clear ↔ ∀ x, sects[i]? = some x → x.state = .clear := by
  unfold stateAt
  cases sects[i]? with
  | none => exact ⟨fun _ => nofun, fun _ => rfl⟩
  | some r => simp

theorem neighbours_iff (e f : SectionEntry) :
    neighbours e f = true ↔ ∃ b ∈ e.bounds, ∃ c ∈ f.bounds, c.dp = b.dp := by
  simp [neighbours, boundedBy_iff]

theorem neighboursClear_iff (n : Nat) (e : SectionEntry) (table : List SectionEntry) (sects : List SectRec) :
    neighboursClear n e table sects = true ↔
      ∀ (j : Nat) (f : SectionEntry) (x : SectRec), table[j]? = some f → sects[j]? = some x → j ≠ n →
        (∃ b ∈ e.bounds, ∃ c ∈ f.bounds, c.dp = b.dp) → x.state = .clear := by
  have one (j : Nat) (f : SectionEntry) :
      (decide (j = n) || !neighbours e f || decide (stateAt sects j = .clear)) = true ↔
        (j ≠ n → neighbours e f = true → stateAt sects j = .clear) := by
    simp only [Bool.or_eq_true, decide_eq_true_eq, Bool.not_eq_true', ← Bool.not_eq_true]
    tauto
  have all : neighboursClear n e table sects = true ↔ ∀ (j : Nat) (f : SectionEntry), table[j]? = some f → j ≠ n →
      neighbours e f = true → stateAt sects j = .clear := by
    simp only [neighboursClear, List.all_eq_true, mem_indexed, Prod.forall]
    exact forall₃_congr fun j f _ => one j f
  simp only [all, stateAt_eq_clear_iff, neighbours_iff]
  exact ⟨fun h j f x entry record other shared => h j f entry other shared x record,
    fun h j f entry other shared x record => h j f x entry record other shared⟩

theorem allLive_iff (dps : List DpRec) (e : SectionEntry) :
    allLive dps e = true ↔ ∀ b ∈ e.bounds, ∃ x, dps[b.dp]? = some x ∧ x.state = .live := by
  simp only [allLive, List.all_eq_true]
  refine forall₂_congr fun b _ => ?_
  cases dps[b.dp]? with
  | none => simp
  | some r => simp

theorem allLive_eq_false {dps : List DpRec} {e : SectionEntry}
    (h : ∃ b ∈ e.bounds, ∀ x, dps[b.dp]? = some x → x.state ≠ .live) : allLive dps e = false := by
  obtain ⟨b, mem, dead⟩ := h
  refine Bool.eq_false_iff.2 fun live => ?_
  obtain ⟨x, get, state⟩ := (allLive_iff dps e).1 live b mem
  exact dead x get state

section Outcome

variable {s : State} {n mode : Nat} {e : SectionEntry} {r : SectRec}

theorem restoreOutcome_of_noEntry (entry : s.sectTable[n]? = none) (mode : Nat) : s.restoreOutcome n mode = .refusedRange := by
  unfold State.restoreOutcome
  rw [entry]

variable (entry : s.sectTable[n]? = some e) (record : s.sects[n]? = some r)
include entry record

theorem restoreOutcome_of_mode (unknown : 1 < mode) : s.restoreOutcome n mode = .refusedRange := by
  simp only [State.restoreOutcome, entry, record]
  exact if_pos unknown

/-- Where conditions 3 to 6 hold the restore is DONE (R81). -/
theorem restoreOutcome_of_done (known : mode ≤ 1) (state : r.state = .disturbed) (live : allLive s.dps e = true)
    (direct : mode = 1 → e.direct = true ∧ neighboursClear n e s.sectTable s.sects = true) :
    s.restoreOutcome n mode = .done := by
  simp only [State.restoreOutcome, entry, record]
  rw [if_neg (Nat.not_lt.2 known), if_neg (not_not.2 state), if_neg (by simp [live]),
    if_neg fun both => by simp [(direct both.1).1] at both, if_neg fun both => by simp [(direct both.1).2] at both]

/-- Where one of them fails it is REFUSED_STATE, whichever it is (R81). -/
theorem restoreOutcome_of_refused (known : mode ≤ 1) (fails : r.state ≠ .disturbed ∨ allLive s.dps e = false ∨
      (mode = 1 ∧ (e.direct = false ∨ neighboursClear n e s.sectTable s.sects = false))) :
    s.restoreOutcome n mode = .refusedState := by
  simp only [State.restoreOutcome, entry, record]
  rw [if_neg (Nat.not_lt.2 known)]
  split_ifs with state live direct clear
  · rfl
  · rfl
  · rfl
  · rfl
  · rcases fails with other | dead | ⟨one, barred | doubt⟩
    · exact absurd other state
    · exact absurd (by simp [dead]) live
    · exact absurd ⟨one, by simp [barred]⟩ direct
    · exact absurd ⟨one, by simp [doubt]⟩ clear

end Outcome

/-! ### The report of a restore (R82, R84) -/

theorem sectActs_of_same (unproved : Bool) (i : Nat) (e : SectionEntry) (x : SectRec) : sectActs unproved i e x x = [] := by
  cases state : x.state with
  | _ => simp [sectActs, state, SectState.doubtful]

/-- The reports of a section event whose first section has index `k`. -/
def eventActsFrom (unproved : Bool) (k : Nat) (table : List SectionEntry) (old new : List SectRec) : List FaultAct :=
  (zipWithList (fun ie on => sectActs unproved ie.1 ie.2 on.1 on.2) (indexed k table)
    (zipWithList Prod.mk old new)).flatten

theorem sectEventActs_eq (unproved : Bool) (table : List SectionEntry) (old new : List SectRec) :
    sectEventActs unproved table old new = eventActsFrom unproved 0 table old new := rfl

theorem eventActsFrom_cons (unproved : Bool) (k : Nat) (e : SectionEntry) (table : List SectionEntry) (x y : SectRec)
    (old new : List SectRec) : eventActsFrom unproved k (e :: table) (x :: old) (y :: new) =
      sectActs unproved k e x y ++ eventActsFrom unproved (k + 1) table old new := rfl

theorem eventActsFrom_of_same (unproved : Bool) (k : Nat) (table : List SectionEntry) (l : List SectRec) :
    eventActsFrom unproved k table l l = [] := by
  induction table generalizing k l with
  | nil => rfl
  | cons e table ih =>
    cases l with
    | nil => rfl
    | cons x l => rw [eventActsFrom_cons, sectActs_of_same, ih, List.nil_append]

/-- Where one section changes, the event reports what that section reports. -/
theorem eventActsFrom_of_set {unproved : Bool} {table : List SectionEntry} {l : List SectRec} {n : Nat} {e : SectionEntry}
    {x : SectRec} (entry : table[n]? = some e) (record : l[n]? = some x) (k : Nat) (y : SectRec) :
    eventActsFrom unproved k table l (l.set n y) = sectActs unproved (k + n) e x y := by
  induction table generalizing k l n with
  | nil => exact absurd entry nofun
  | cons f table ih =>
    cases l with
    | nil => exact absurd record nofun
    | cons z l =>
      cases n with
      | zero =>
        obtain rfl : f = e := Option.some.inj entry
        obtain rfl : z = x := Option.some.inj record
        rw [List.set_cons_zero, eventActsFrom_cons, eventActsFrom_of_same, List.append_nil, Nat.add_zero]
      | succ n =>
        have rest := ih (l := l) (n := n) entry record (k + 1)
        rw [List.set_cons_succ, eventActsFrom_cons, sectActs_of_same, rest, List.nil_append, Nat.add_right_comm, Nat.add_assoc]

/-! ### RESTORE SECTION (O37) -/

/-- A section as a restore in a mode leaves it (R82, R84). -/
def SectRec.restoredBy (mode : Byte) (r : SectRec) : SectRec :=
  { r with
    state := if mode = 0 then .restoring else .clear, count := 0, balance := 0, inTotal := 0, outTotal := 0,
    entered := false, left := false, restored := if mode = 0 then r.restored else .direct }

theorem toNat_eq_zero_iff (mode : Byte) : mode.toNat = 0 ↔ mode = 0 := by
  rw [← BitVec.toNat_inj]
  rfl

theorem toNat_eq_one_iff (mode : Byte) : mode.toNat = 1 ↔ mode = 1 := by
  rw [← BitVec.toNat_inj]
  rfl

theorem restoredBy_eq (mode : Byte) (r : SectRec) :
    (if mode.toNat = 0 then SectRec.sweep else SectRec.direct) r = r.restoredBy mode := by
  by_cases sweep : mode = 0
  · rw [if_pos ((toNat_eq_zero_iff mode).2 sweep)]
    simp only [SectRec.restoredBy, if_pos sweep]
    rfl
  · rw [if_neg (mt (toNat_eq_zero_iff mode).1 sweep)]
    simp only [SectRec.restoredBy, if_neg sweep]
    rfl

/-- DIRECT of a section that was DISTURBED clears its SECTION_DISTURBED, SWEEP reports nothing (R82, R84). -/
theorem sectActs_of_restore (n : Nat) (e : SectionEntry) {r : SectRec} (state : r.state = .disturbed) (mode : Byte) :
    sectActs false n e r (r.restoredBy mode) = if mode = 0 then [] else [.clear .sectionDisturbed ⟨.sect, n⟩] := by
  by_cases sweep : mode = 0
  · simp [sectActs, SectRec.restoredBy, state, sweep]
  · simp [sectActs, SectRec.restoredBy, state, doubtful_iff]

/-- The section restored, before the demands and the Sequence Controller are told. -/
def State.restoredSect (s : State) (n : Nat) (mode : Byte) (r : SectRec) : State :=
  { s with sects := s.sects.set n (r.restoredBy mode) }

theorem restoreSection_of_disturbed {s : State} {n : Nat} {e : SectionEntry} {r : SectRec} (entry : s.sectTable[n]? = some e)
    (record : s.sects[n]? = some r) (state : r.state = .disturbed) (mode : Byte) :
    s.restoreSection n mode.toNat = (State.demandsSeeSections
      (if mode = 0 then s.restoredSect n mode r else (s.restoredSect n mode r).clear .sectionDisturbed ⟨.sect, n⟩)
      s.sects).tell := by
  have changed : modifyAt s.sects n (if mode.toNat = 0 then SectRec.sweep else SectRec.direct) =
      s.sects.set n (r.restoredBy mode) := by
    rw [modifyAt_of_some _ record, restoredBy_eq]
  unfold State.restoreSection
  dsimp only
  rw [changed, sectEventActs_eq, eventActsFrom_of_set entry record, Nat.zero_add, sectActs_of_restore n e state]
  split
  · rfl
  · rfl

theorem exec_restoreSection_of_refused {s : State} {n mode : Byte} {o : ReplyOutcome}
    (outcome : s.restoreOutcome n.toNat mode.toNat = o) (refused : o ≠ .done) (tag : Byte) :
    exec (.restoreSection tag n mode) s = .next (s.hear.reply 0 tag o .none).settle := by
  have hears : s.hear.restoreOutcome n.toNat mode.toNat = o := outcome
  show completes (boxCommand (cmdRestoreSection tag n mode)) s = _
  unfold completes boxCommand cmdRestoreSection
  rw [hears]
  cases o with
  | done => exact absurd rfl refused
  | _ => rfl

theorem exec_restoreSection_of_done {s : State} {n mode : Byte} (outcome : s.restoreOutcome n.toNat mode.toNat = .done)
    (tag : Byte) : exec (.restoreSection tag n mode) s = .next ((s.hear.restoreSection n.toNat mode.toNat).reply 0 tag .done
      (.sect n.toNat (if mode = 0 then .restoring else .clear))).settle := by
  have hears : s.hear.restoreOutcome n.toNat mode.toNat = .done := outcome
  show completes (boxCommand (cmdRestoreSection tag n mode)) s = _
  unfold completes boxCommand cmdRestoreSection
  rw [hears]
  simp only [toNat_eq_zero_iff]

theorem demandsSeeSections_sects (s : State) (old : List SectRec) : (s.demandsSeeSections old).sects = s.sects :=
  eachDemand_sects s _

theorem restoreSection_sects {s : State} {n : Nat} {r : SectRec} (record : s.sects[n]? = some r) (mode : Byte) :
    (s.restoreSection n mode.toNat).sects = s.sects.set n (r.restoredBy mode) := by
  refine ((tell_only _).sects.trans (demandsSeeSections_sects _ _)).trans ?_
  rw [report_sects, modifyAt_of_some _ record, restoredBy_eq]

theorem TrackOnly.trackFrame {s t : State} (h : TrackOnly s t) : TrackFrame s t := by
  obtain ⟨f, c, a, l, b, d, x, told, rfl⟩ := h
  exact ⟨rfl, told.recordsOnly, rfl⟩

theorem LineFrame.track {s t : State} (h : LineFrame s t) : TrackFrame s t := by
  obtain ⟨line, records, rest⟩ := h
  exact ⟨line, records, by rw [rest]⟩

theorem TrackFrame.trans {s t u : State} (h : TrackFrame s t) (k : TrackFrame t u) : TrackFrame s u := by
  obtain ⟨line, records, rest⟩ := h
  obtain ⟨line', records', rest'⟩ := k
  exact ⟨line.trans line', records.trans records', rest'.trans (by rw [rest])⟩

/-- The end of the step of a restore, with no activation waiting: nothing but the track, the line and control has changed, and
of the sections only the one restored. -/
theorem restoreSection_reaches {s : State} {n mode : Byte} {r : SectRec}
    (outcome : s.restoreOutcome n.toNat mode.toNat = .done) (record : s.sects[n.toNat]? = some r) (idle : NoActivation s) (tag : Byte) :
    Reaches (.restoreSection tag n mode) s fun t =>
      TrackFrame s.hear t ∧ (∀ j, j ≠ n.toNat → t.sects[j]? = s.sects[j]?) ∧
        t.sects[n.toNat]? = some (r.restoredBy mode) := by
  have restored := restoreSection_only s.hear n.toNat mode.toNat
  have reply := reply_frame (s.hear.restoreSection n.toNat mode.toNat) 0 tag .done
    (.sect n.toNat (if mode = 0 then .restoring else .clear))
  obtain ⟨store, -⟩ := restored.records
  have store := reply.detect.store.trans store
  have ended := reply.trans (finish_frame _).1.frame
  refine ⟨_, exec_restoreSection_of_done outcome tag, ?_⟩
  rw [settle_of_idle (by rw [store]; exact idle)]
  obtain ⟨-, -, sects⟩ := ended.tracks
  have sects := sects.trans (restoreSection_sects (s := s.hear) record mode)
  obtain ⟨inside, -⟩ := List.getElem?_eq_some_iff.1 record
  refine ⟨restored.trackFrame.trans ended.track, fun j other => ?_, ?_⟩
  · rw [sects]
    exact List.getElem?_set_ne other.symm
  · rw [sects]
    exact List.getElem?_set_self inside

/-- Settles O37: the outcome by its conditions, the restore by the one section it changes and the report of that section. -/
theorem restoreSectionSweepsOrClears : Obligations.RestoreSectionSweepsOrClears := by
  refine ⟨neighboursClear_iff, fun tag n mode s => ⟨fun none => ?noEntry, fun e r entry record => ?_⟩⟩
  case noEntry => exact exec_restoreSection_of_refused (restoreOutcome_of_noEntry none _) nofun tag
  have done (known : mode.toNat ≤ 1) (state : r.state = .disturbed)
      (live : ∀ b ∈ e.bounds, ∃ x, s.dps[b.dp]? = some x ∧ x.state = .live)
      (direct : mode = 1 → e.direct = true ∧ neighboursClear n.toNat e s.sectTable s.sects = true) :
      s.restoreOutcome n.toNat mode.toNat = .done :=
    restoreOutcome_of_done entry record known state ((allLive_iff _ e).2 live) fun one => direct ((toNat_eq_one_iff mode).1 one)
  refine ⟨fun unknown => ?mode, fun known fails => ?refused, fun known state live direct idle => ?reaches,
    fun u v st known state live direct hst hu hv => ?told⟩
  case mode => exact exec_restoreSection_of_refused (restoreOutcome_of_mode entry record unknown) nofun tag
  case refused =>
    refine exec_restoreSection_of_refused (restoreOutcome_of_refused entry record known ?_) nofun tag
    exact fails.imp_right (Or.imp allLive_eq_false (And.imp_left (toNat_eq_one_iff mode).2))
  case reaches => exact restoreSection_reaches (done known state live direct) record idle tag
  case told =>
    subst hst hu hv
    rw [exec_restoreSection_of_done (done known state live direct) tag,
      restoreSection_of_disturbed (s := s.hear) entry record state mode]
    rfl

end Sys2Proof.Machine

namespace Sys2Proof.Machine

open Sys2Proof

/-! ### What leaves the sections as they are -/

theorem LineOnly.sects {s t : State} (h : LineOnly s t) : t.sects = s.sects := by
  obtain ⟨-, -, -, sects, -⟩ := h.keeps
  exact sects

@[simp] theorem reply_sects (s : State) (dest tag : Byte) (o : ReplyOutcome) (d : ReplyData) :
    (s.reply dest tag o d).sects = s.sects := (reply_line s dest tag o d).sects

@[simp] theorem causesChanged_sects (s : State) : s.causesChanged.sects = s.sects := (causesChanged_only s).sects

@[simp] theorem requests_sects (s : State) (f : AuthorityRec → AuthorityRec) : (s.requests f).sects = s.sects :=
  (requests_only s f).sects

@[simp] theorem resetMachine_sects (s : State) (i : Fin 4) : (s.resetMachine i).sects = s.sects := (resetMachine_only s i).sects

@[simp] theorem beginStep_sects (s : State) (tag : Byte) (st : Step) : (s.beginStep tag st).sects = s.sects :=
  (beginStep_only s tag st).sects

@[simp] theorem isolate_sects (s : State) : s.isolate.sects = s.sects := (isolate_line s).sects

@[simp] theorem restorePort_sects (s : State) : s.restorePort.sects = s.sects := (restorePort_line s).sects

@[simp] theorem replyOwner_sects (s : State) (tag : Byte) : (s.replyOwner tag).sects = s.sects := reply_sects s _ _ _ _

/-! ### The commands of the box that leave the sections as they are (R192) -/

section Commands

variable (tag x y : Byte) (s : State)

@[simp] theorem cmdAckReport_sects : (cmdAckReport tag x y s).sects = s.sects := by
  unfold cmdAckReport
  repeat' split
  all_goals simp

@[simp] theorem cmdReportsStart_sects : (cmdReportsStart tag s).sects = s.sects := reply_sects _ _ _ _ _

@[simp] theorem cmdReportsStop_sects : (cmdReportsStop tag s).sects = s.sects := reply_sects _ _ _ _ _

@[simp] theorem cmdClassEnable_sects : (cmdClassEnable tag x y s).sects = s.sects := by
  unfold cmdClassEnable
  split <;> simp

@[simp] theorem cmdClearAcked_sects : (cmdClearAcked tag s).sects = s.sects := reply_sects _ _ _ _ _

@[simp] theorem cmdResetLamp_sects : (cmdResetLamp tag x s).sects = s.sects := by
  unfold cmdResetLamp
  repeat' split
  all_goals simp

@[simp] theorem cmdResetMachine_sects : (cmdResetMachine tag x s).sects = s.sects := by
  unfold cmdResetMachine
  dsimp only
  repeat' split
  all_goals simp

@[simp] theorem cmdRemoteRequest_sects : (cmdRemoteRequest tag s).sects = s.sects := by
  unfold cmdRemoteRequest
  split <;> simp

@[simp] theorem cmdRemoteRelease_sects : (cmdRemoteRelease tag s).sects = s.sects := by simp [cmdRemoteRelease]

@[simp] theorem cmdTestRequest_sects : (cmdTestRequest tag s).sects = s.sects := by
  unfold cmdTestRequest
  split <;> simp

@[simp] theorem cmdTestRelease_sects : (cmdTestRelease tag s).sects = s.sects := by simp [cmdTestRelease]

@[simp] theorem cmdLocalRelease_sects : (cmdLocalRelease tag s).sects = s.sects := by
  unfold cmdLocalRelease
  split <;> simp

@[simp] theorem cmdLocalWithdraw_sects : (cmdLocalWithdraw tag s).sects = s.sects := by simp [cmdLocalWithdraw]

@[simp] theorem cmdRemoteClose_sects : (cmdRemoteClose tag s).sects = s.sects := by
  unfold cmdRemoteClose
  split <;> simp

@[simp] theorem cmdRemoteOpen_sects : (cmdRemoteOpen tag s).sects = s.sects := by
  unfold cmdRemoteOpen
  split <;> simp

@[simp] theorem cmdTestStep_sects : (cmdTestStep tag x y s).sects = s.sects := by
  unfold cmdTestStep
  repeat' split
  all_goals simp

@[simp] theorem cmdPortIsolate_sects : (cmdPortIsolate tag s).sects = s.sects := by
  unfold cmdPortIsolate
  split <;> simp

@[simp] theorem cmdPortRestore_sects : (cmdPortRestore tag s).sects = s.sects := by
  unfold cmdPortRestore
  split <;> simp

@[simp] theorem cmdRead_sects : (cmdRead tag x y s).sects = s.sects := by
  unfold cmdRead
  split <;> simp

@[simp] theorem cmdPlanBlock_sects (args : List Byte) : (cmdPlanBlock tag args s).sects = s.sects := by
  unfold cmdPlanBlock
  repeat' split
  all_goals simp

@[simp] theorem cmdPlanCheck_sects : (cmdPlanCheck tag s).sects = s.sects := by
  unfold cmdPlanCheck
  repeat' split
  all_goals simp

@[simp] theorem cmdPlanCancel_sects : (cmdPlanCancel tag s).sects = s.sects := by
  unfold cmdPlanCancel
  split <;> simp

end Commands

/-! ### The events that leave the sections as they are -/

section Events

variable (s : State) (b : Bool)

theorem opWriteComplete_sects : (opWriteComplete s).sects = s.sects := by
  unfold opWriteComplete
  split
  · rfl
  · exact reply_sects _ _ _ _ _

theorem opPanelClose_sects : (opPanelClose b s).sects = s.sects := by
  unfold opPanelClose
  dsimp only
  repeat' split
  all_goals simp

theorem opPanelOpen_sects : (opPanelOpen b s).sects = s.sects := by
  unfold opPanelOpen
  dsimp only
  repeat' split
  all_goals simp

theorem opBattLow_sects : (opBattLow b s).sects = s.sects := by
  unfold opBattLow
  dsimp only
  repeat' split
  all_goals simp

theorem opMainsOff_sects : (opMainsOff b s).sects = s.sects := by
  unfold opMainsOff
  dsimp only
  repeat' split
  all_goals simp

theorem opDrain_sects (n : Fin 64) : (opDrain n s).sects = s.sects := by
  unfold opDrain
  split <;> rfl

theorem opAckDeadline_sects (n : Fin 64) : (opAckDeadline n s).sects = s.sects := by
  unfold opAckDeadline
  split <;> rfl

end Events

/-! ### The local heads before their COUNT (R66 to R70) -/

section Heads

variable (s : State) (h : Fin 8)

@[simp] theorem oweHealth_sects : (s.oweHealth h).sects = s.sects := by
  unfold State.oweHealth
  split <;> rfl

@[simp] theorem oneChannel_sects : (s.oneChannel h).sects = s.sects := by simp [State.oneChannel]

@[simp] theorem stuck_sects : (s.stuck h).sects = s.sects := by simp [State.stuck]

theorem judgePulse_sects (ch : Channel) (limit : Nat) (p : Pulse) : (s.judgePulse h ch limit p).sects = s.sects := by
  have noise : (s.noisePulse h ch p.first).sects = s.sects := by
    unfold State.noisePulse
    split <;> simp
  have pair (t : State) (w : Pulse) : (t.pairPulses h ch p w).sects = t.sects := by
    unfold State.pairPulses
    dsimp only
    split <;> simp
  have valid : (s.validPulse h ch p).sects = s.sects := by
    unfold State.validPulse
    dsimp only
    repeat' split
    all_goals simp [pair]
  unfold State.judgePulse
  dsimp only
  repeat' split
  · exact noise
  · exact stuck_sects s h
  · exact valid

theorem headEdge_sects (ch : Channel) (on : Bool) (us : Nat) : (s.headEdge h ch on us).sects = s.sects := by
  unfold State.headEdge
  dsimp only
  repeat' split
  all_goals simp [judgePulse_sects]

end Heads

/-! ### The Section Table (R73 to R86) -/

/-- Every section record keeps its law. -/
def SectsLawful (s : State) : Prop := ∀ r ∈ s.sects, SectLaw r

section Lawful

variable {s t : State}

theorem SectsLawful.of_eq (k : SectsLawful s) (h : t.sects = s.sects) : SectsLawful t := by
  rw [SectsLawful, h]
  exact k

theorem SectsLawful.line (k : SectsLawful s) (only : LineOnly s t) : SectsLawful t := k.of_eq only.sects

theorem SectsLawful.control (k : SectsLawful s) (only : ControlOnly s t) : SectsLawful t := k.of_eq only.sects

theorem SectsLawful.reply (k : SectsLawful s) (dest tag : Byte) (o : ReplyOutcome) (d : ReplyData) :
    SectsLawful (s.reply dest tag o d) := k.of_eq (reply_sects s dest tag o d)

theorem SectsLawful.count (k : SectsLawful s) (p : Port) (f : Counters → Counters) : SectsLawful (s.count p f) :=
  k.of_eq (count_sects s p f)

/-- The DP records, the heads and the wrong-side set are no matter of the sections. -/
theorem SectsLawful.setDp (k : SectsLawful s) (i : Nat) (r : DpRec) : SectsLawful (s.setDp i r) := k

theorem SectsLawful.onHead (k : SectsLawful s) (h : Fin 8) (f : HeadRec → HeadRec) : SectsLawful (s.onHead h f) := k

theorem SectsLawful.wrongSides (k : SectsLawful s) (set : List Byte) :
    SectsLawful { s with lif := { s.lif with wrongSide := set } } := k

theorem SectsLawful.sectionEvent (k : SectsLawful s) {f : SectionEntry → SectRec → SectRec}
    (keeps : ∀ e r, SectLaw r → SectLaw (f e r)) : SectsLawful (s.sectionEvent f) := by
  intro r mem
  rw [sectionEvent_sects, mem_zipWithList] at mem
  obtain ⟨j, e, x, -, get, rfl⟩ := mem
  exact keeps e x (k x (List.mem_of_getElem? get))

theorem SectsLawful.countDelta (k : SectsLawful s) (i a b : Nat) : SectsLawful (s.countDelta i a b) := by
  rw [countDelta_eq]
  refine k.sectionEvent fun e r law => ?_
  unfold SectRec.takenFrom
  split
  · exact law
  · exact sectLaw_take law _ _ _
  · exact sectLaw_take law _ _ _

theorem SectsLawful.disturbDp (k : SectsLawful s) (i : Nat) (cause : SectCause) : SectsLawful (s.disturbDp i cause) := by
  refine k.sectionEvent fun e r law => ?_
  split
  · exact sectLaw_disturb r _ _ _ _
  · exact law

theorem SectsLawful.restoreSection (k : SectsLawful s) (n mode : Nat) : SectsLawful (s.restoreSection n mode) := by
  have sects : (s.restoreSection n mode).sects = modifyAt s.sects n (if mode = 0 then SectRec.sweep else SectRec.direct) :=
    (tell_only _).sects.trans (demandsSeeSections_sects _ _)
  intro r mem
  rw [sects] at mem
  rcases mem_modifyAt mem with old | ⟨x, -, rfl⟩
  · exact k r old
  · split
    · exact sectLaw_sweep x
    · exact sectLaw_direct x

/-! ### Detection (R53 to R65) -/

theorem SectsLawful.dpFailed (k : SectsLawful s) (i : Nat) (was : DpState) (r : DpRec) : SectsLawful (s.dpFailed i was r) := by
  unfold State.dpFailed
  dsimp only
  split
  · exact k.setDp i _
  · exact (((k.setDp i _).disturbDp i .headFailed).control (raise_only _ _ _ _)).control (clearSilent_only _ i was)

theorem SectsLawful.dpBaseline (k : SectsLawful s) (i : Nat) (d : Delivery) (was : DpState) (r : DpRec) :
    SectsLawful (s.dpBaseline i d was r) := by
  unfold State.dpBaseline
  dsimp only
  split
  · exact k.dpFailed i was _
  · exact ((k.setDp i _).control (clearSilent_only _ i was)).control (clear_only _ _ _)

theorem SectsLawful.opSilence (k : SectsLawful s) (i : Nat) : SectsLawful (opSilence i s) := by
  unfold Machine.opSilence
  split
  · exact k
  · split
    · exact ((k.setDp i _).disturbDp i .silent).control (raise_only _ _ _ _)
    · exact k

section Told

variable {told : State → State} (keeps : ∀ t, SectsLawful t → SectsLawful (told t))
include keeps

theorem SectsLawful.handOnBy (k : SectsLawful s) (i a b : Nat) (ev : Option Time) : SectsLawful (s.handOnBy told i a b ev) := by
  have sects := keeps _ (k.countDelta i a b)
  have pass {t : State} (k : SectsLawful t) (dir : CountDir) : SectsLawful (told (t.handPassage s.dpTable i dir ev)) := by
    refine keeps _ ?_
    unfold State.handPassage
    split
    · exact k
    · exact k.of_eq (passage_sects t _ dir ev)
  unfold State.handOnBy
  dsimp only
  split <;> split
  · exact sects
  · exact pass sects _
  · exact pass sects _
  · exact pass (pass sects _) _

theorem SectsLawful.dpCountBy (k : SectsLawful s) (i : Nat) (d : Delivery) (timed handled : Bool) (r : DpRec) :
    SectsLawful (s.dpCountBy told i d timed handled r) := by
  unfold State.dpCountBy
  dsimp only
  split
  · exact ((k.setDp i _).disturbDp i .restart).control (momentary_only _ _ _ _)
  · split
    · exact (k.setDp i _).disturbDp i .implausible
    · unfold State.dpPlausibleBy
      dsimp only
      split
      · exact k.setDp i _
      · exact SectsLawful.handOnBy keeps (k.setDp i _) i _ _ _

theorem SectsLawful.deliverBy (k : SectsLawful s) (i : Nat) (d : Delivery) : SectsLawful (s.deliverBy told i d) := by
  unfold State.deliverBy
  split
  · exact k
  · split
    · exact k
    · dsimp only
      split
      · exact k.dpBaseline i d _ _
      · split
        · exact k.dpFailed i _ _
        · split
          · exact SectsLawful.dpCountBy keeps ((k.setDp i _).control (clear_only _ _ _)) i d _ _ _
          · exact SectsLawful.dpCountBy keeps (((k.setDp i _).control (clear_only _ _ _)).control (clear_only _ _ _)) i d _ _ _
          · exact SectsLawful.dpCountBy keeps k i d _ _ _

theorem SectsLawful.emitBy (k : SectsLawful s) (h : Fin 8) : SectsLawful (s.emitBy told h) := by
  unfold State.emitBy
  split
  · exact k
  · split
    · exact k
    · exact SectsLawful.deliverBy keeps (((k.onHead h _).line (offerBox_line _ 3 _)).line (offerField_line _ _)) _ _

end Told

theorem SectsLawful.foldl {α : Type} {f : State → α → State} (keeps : ∀ s x, SectsLawful s → SectsLawful (f s x))
    (l : List α) (k : SectsLawful s) : SectsLawful (l.foldl f s) := by
  induction l generalizing s with
  | nil => exact k
  | cons x l ih => exact ih (keeps s x k)

/-! ### The swap (R20 to R23) -/

/-- A section of the new plan keeps a record of the old one, or has a fresh one (R22). -/
theorem sectLaw_carrySect {recs : List SectRec} (h : ∀ r ∈ recs, SectLaw r) (now : Time) (old : Option Plan) (new : Plan)
    (e : SectionEntry) : SectLaw (carrySect now old new recs e) := by
  unfold carrySect
  cases kept : keptSect old new recs e with
  | none => exact sectLaw_fresh now .plan
  | some r =>
    unfold keptSect at kept
    split at kept
    · cases kept
    · exact h r (List.mem_of_getElem? kept)

theorem SectsLawful.swapRecords (k : SectsLawful s) (old : Option Plan) (new : Plan) : SectsLawful (s.swapRecords old new) := by
  intro r mem
  obtain ⟨e, -, rfl⟩ := List.mem_map.1 (show r ∈ new.sects.map (carrySect s.clock old new s.sects) from mem)
  exact sectLaw_carrySect k _ _ _ e

theorem swapEquipment_sects (s : State) (old : Option Plan) (new : Plan) : (s.swapEquipment old new).sects = s.sects :=
  (ControlOnly.foldl _ (swapMachine_only old new) _ _).sects

theorem swapCrossing_sects (s : State) : s.swapCrossing.sects = s.sects := by
  have views (t : State) (v : CrossingRec) :
      (State.elect { t with crossing := v }).forceDoubtful.tell.causesChanged.sects = t.sects :=
    ((tell_only _).trans (causesChanged_only _)).sects.trans ((eachDemand_sects _ _).trans (elect_only _).sects)
  unfold State.swapCrossing
  dsimp only
  split
  · exact (views _ _).trans ((enterLowerEntry_only s).trans (clear_only _ _ _)).sects
  · exact views s _

theorem SectsLawful.emitNamed (k : SectsLawful s) (old : Option Plan) (new : Plan) : SectsLawful (s.emitNamed old new) := by
  refine SectsLawful.foldl (fun t h k => ?_) _ k
  split
  · exact SectsLawful.emitBy (fun _ => id) k h
  · exact k

theorem SectsLawful.swap (k : SectsLawful s) : SectsLawful s.swap := by
  have records : SectsLawful (State.swapRecords { s with store := s.store.swapped (planOf s.store.standby.image) } s.store.plan
      (planOf s.store.standby.image)) := SectsLawful.swapRecords (s := { s with store := _ }) k _ _
  exact (records.of_eq ((swapCrossing_sects _).trans (swapEquipment_sects _ _ _))).emitNamed _ _

theorem SectsLawful.owedCarried (k : SectsLawful s) : SectsLawful s.owedCarried := by
  refine SectsLawful.foldl (fun t h k => ?_) _ k
  split
  · exact SectsLawful.emitBy (fun _ => id) k h
  · exact k

theorem SectsLawful.swapIfDue (k : SectsLawful s) : SectsLawful s.swapIfDue := by
  unfold State.swapIfDue
  split
  · exact k.owedCarried.swap
  · exact k

/-- The end of a step. -/
theorem SectsLawful.settle (k : SectsLawful s) : SectsLawful s.settle := k.swapIfDue.line (finish_line _)

/-! ### The COUNTs of the local heads (R66 to R72) -/

theorem SectsLawful.emit (k : SectsLawful s) (h : Fin 8) : SectsLawful (s.emit h) :=
  SectsLawful.emitBy (fun _ => SectsLawful.swapIfDue) k h

theorem SectsLawful.carry (k : SectsLawful s) (h : Fin 8) : SectsLawful (s.carry h) := by
  unfold State.carry
  split
  · exact k.emit h
  · exact k

theorem SectsLawful.carryNow (k : SectsLawful s) (h : Fin 8) : SectsLawful (s.carryNow h) := by
  unfold State.carryNow
  split
  · exact k.emit h
  · exact k

theorem SectsLawful.resetHead (k : SectsLawful s) (n : Nat) : SectsLawful (s.resetHead n) := by
  unfold State.resetHead
  split
  next h => exact (((k.carryNow ⟨n, h⟩).onHead _ HeadRec.restored).of_eq (oweHealth_sects _ _)).carryNow ⟨n, h⟩
  · exact k

theorem SectsLawful.opHeadEdge (k : SectsLawful s) (h : Fin 8) (ch : Channel) (on : Bool) (us : Nat) :
    SectsLawful (opHeadEdge h ch on us s) := (k.of_eq (headEdge_sects s h ch on us)).carry h

theorem SectsLawful.opHeadStuck (k : SectsLawful s) (h : Fin 8) (ch : Channel) : SectsLawful (opHeadStuck h ch s) := by
  unfold Machine.opHeadStuck
  split
  · exact (k.of_eq (stuck_sects s h)).carry h
  · exact k.carry h

theorem SectsLawful.opOneChannelExpiry (k : SectsLawful s) (h : Fin 8) : SectsLawful (opOneChannelExpiry h s) := by
  unfold Machine.opOneChannelExpiry
  dsimp only
  split
  · exact ((k.onHead h _).of_eq (owe_sects _ h)).carry h
  · exact (k.onHead h _).carry h

theorem SectsLawful.opHeartbeat (k : SectsLawful s) (h : Fin 8) : SectsLawful (opHeartbeat h s) := by
  unfold Machine.opHeartbeat
  split
  · exact k.emit h
  · exact k

theorem SectsLawful.opRestartedClears (k : SectsLawful s) : SectsLawful (opRestartedClears s) := by
  have all {t : State} (k : SectsLawful t) : SectsLawful t.carryAll := SectsLawful.foldl (fun _ h k => k.carry h) _ k
  unfold Machine.opRestartedClears
  split
  · exact all (k.of_eq (clearRestarted_sects s))
  · exact all k

/-! ### The commands of the box, and telegrams (R33 to R40, R192) -/

theorem SectsLawful.cmdRestoreSection (k : SectsLawful s) (tag x y : Byte) : SectsLawful (cmdRestoreSection tag x y s) := by
  unfold Machine.cmdRestoreSection
  split
  · exact (k.restoreSection _ _).reply _ _ _ _
  · exact k.reply _ _ _ _

theorem SectsLawful.cmdResetHead (k : SectsLawful s) (tag x : Byte) : SectsLawful (cmdResetHead tag x s) := by
  unfold Machine.cmdResetHead
  split
  · exact (k.resetHead _).reply _ _ _ _
  · exact k.reply _ _ _ _

theorem SectsLawful.cmdPlanActivate (k : SectsLawful s) (tag : Byte) (i v : Nat) : SectsLawful (cmdPlanActivate tag i v s) := by
  have pending : SectsLawful { s with store := { s.store with pending := true } } := k
  unfold Machine.cmdPlanActivate
  dsimp only
  split
  · exact k.reply _ _ _ _
  · split
    · exact k.reply _ _ _ _
    · split
      · exact k.reply _ _ _ _
      · split
        · exact pending.swapIfDue.reply _ _ _ _
        · exact pending.reply _ _ _ _

/-- Of the commands of the box, RESTORE SECTION, a head's reset and PLAN ACTIVATE may change the sections. -/
theorem SectsLawful.runCommand (k : SectsLawful s) (tag : Byte) (cmd : BoxCommand) : SectsLawful (runCommand tag cmd s) := by
  cases cmd with
  | restoreSection x y => exact k.cmdRestoreSection tag x y
  | resetHead x => exact k.cmdResetHead tag x
  | planActivate i v => exact k.cmdPlanActivate tag _ _
  | _ => exact k.of_eq (by simp [Machine.runCommand])

theorem SectsLawful.decodeAndRun (k : SectsLawful s) (body : List Byte) : SectsLawful (decodeAndRun body s) := by
  unfold Machine.decodeAndRun
  split
  · split
    · exact k.reply _ _ _ _
    · split
      · exact k.reply _ _ _ _
      · exact k.runCommand _ _
  · exact k

theorem SectsLawful.consume (k : SectsLawful s) (p : Port) (x : Telegram) : SectsLawful (s.consume p x) := by
  unfold State.consume
  split
  · exact k.count p _
  · split
    · exact (k.count .box _).decodeAndRun _
    · exact (k.count p _).reply _ _ _ _

theorem SectsLawful.deliverLine (k : SectsLawful s) (p : Port) (i : Nat) (x : Telegram) (body : CountBody) :
    SectsLawful (s.deliverLine p i x body) := by
  unfold State.deliverLine
  dsimp only
  split
  · exact SectsLawful.deliverBy (fun _ => SectsLawful.swapIfDue)
      (((k.wrongSides _).control (clear_only _ _ _)).count p _) i _
  · exact SectsLawful.deliverBy (fun _ => SectsLawful.swapIfDue) (k.count p _) i _

theorem wrongSide_sects (s : State) (p : Port) (i : Nat) (src : Byte) : (s.wrongSide p i src).sects = s.sects := by
  unfold State.wrongSide
  dsimp only
  split <;> simp

theorem SectsLawful.checkDp (k : SectsLawful s) (p : Port) (x : Telegram) : SectsLawful (s.checkDp p x) := by
  unfold State.checkDp
  split
  · split
    · exact k
    · split
      · exact k.deliverLine p _ x _
      · exact k.of_eq (wrongSide_sects s p _ _)
  · exact k

theorem heardBy_sects (s : State) (p : Port) (x : Telegram) : (s.heardBy p x).sects = s.sects := by
  unfold State.heardBy
  split <;> rfl

theorem SectsLawful.passOn (k : SectsLawful s) (p : Port) (x : Telegram) : SectsLawful (s.passOn p x) := by
  have heard : SectsLawful (s.heardBy p x) := k.of_eq (heardBy_sects s p x)
  have relayed : SectsLawful ((s.heardBy p x).relay p x) := heard.line (relay_line _ p x)
  by_cases own : s.lif.station = some x.dest
  · rw [passOn_of_own own]
    exact heard.consume p x
  · by_cases kind : x.kind = kindCount
    · rw [passOn_of_count own kind]
      exact relayed.checkDp p x
    · rw [passOn_of_relayed own kind]
      exact relayed

theorem SectsLawful.accept (k : SectsLawful s) (p : Port) (x : Telegram) : SectsLawful (s.accept p x) := by
  have arrived : SectsLawful ((s.count p fun c => { c with received := up16 c.received }).activity p) :=
    (k.count p _).line (activity_line _ p)
  unfold State.accept
  dsimp only
  split
  · exact arrived.line (loopDiscard_line _ p)
  · split
    · exact arrived.passOn p x
    · exact arrived.count p _

theorem SectsLawful.opTelegram (k : SectsLawful s) (p : Port) (bytes : List Byte) (us : Nat) :
    SectsLawful (opTelegram p bytes us s) := by
  unfold Machine.opTelegram
  dsimp only
  split
  · exact k
  · split
    · exact (k.of_eq (atMicros_sects s us)).line (formatFailure_line _ p)
    · exact (k.of_eq (atMicros_sects s us)).accept p _

/-! ### A step -/

/-- START leaves every section with a fresh record, before the COUNTs that follow (R73). -/
theorem SectsLawful.startPart (s : State) : SectsLawful (startPart s) := by
  have fresh : SectsLawful s.stopWrite.cleared := by
    intro r mem
    obtain ⟨e, -, rfl⟩ := List.mem_map.1 mem
    exact sectLaw_fresh 0 .start
  have begun := fresh.control ((report_only _ (startActs s.stopWrite.cleared)).trans (startOutputs_only _))
  exact SectsLawful.foldl (fun _ h k => k.emit h) _ begun

theorem reaches_lawful_of_completes {cmd : Instr} {op : State → State} (arm : exec cmd s = completes op s)
    (k : SectsLawful (op s)) : Reaches cmd s SectsLawful := ⟨_, arm, k.settle⟩

theorem reaches_lawful_of_box {cmd : Instr} {tag : Byte} {b : BoxCommand} (k : SectsLawful s)
    (arm : exec cmd s = completes (boxCommand (runCommand tag b)) s) : Reaches cmd s SectsLawful :=
  reaches_lawful_of_completes arm (SectsLawful.runCommand (s := s.hear) k tag b)

/-- An event of the line, the control blocks or the demands leaves the sections as they are. -/
theorem reaches_lawful_of_fixed {cmd : Instr} {op : State → State} (k : SectsLawful s) (arm : exec cmd s = completes op s)
    (h : (op s).sects = s.sects) : Reaches cmd s SectsLawful := reaches_lawful_of_completes arm (k.of_eq h)

theorem exec_keeps_sects (cmd : Instr) (k : SectsLawful s) : Reaches cmd s SectsLawful := by
  cases cmd with
  | start => exact reaches_lawful_of_completes rfl (SectsLawful.startPart s)
  -- the signal box
  | ackReport tag x y => exact reaches_lawful_of_box (b := .ackReport x y) k rfl
  | reportsStart tag => exact reaches_lawful_of_box (b := .reportsStart) k rfl
  | reportsStop tag => exact reaches_lawful_of_box (b := .reportsStop) k rfl
  | classEnable tag x y => exact reaches_lawful_of_box (b := .classEnable x y) k rfl
  | restoreSection tag x y => exact reaches_lawful_of_box (b := .restoreSection x y) k rfl
  | resetEquipmentLamp tag x => exact reaches_lawful_of_box (b := .resetLamp x) k rfl
  | resetEquipmentMachine tag x => exact reaches_lawful_of_box (b := .resetMachine x) k rfl
  | resetEquipmentHead tag x => exact reaches_lawful_of_box (b := .resetHead x) k rfl
  | remoteRequest tag => exact reaches_lawful_of_box (b := .remoteRequest) k rfl
  | remoteRelease tag => exact reaches_lawful_of_box (b := .remoteRelease) k rfl
  | remoteClose tag => exact reaches_lawful_of_box (b := .remoteClose) k rfl
  | remoteOpen tag => exact reaches_lawful_of_box (b := .remoteOpen) k rfl
  | localRelease tag => exact reaches_lawful_of_box (b := .localRelease) k rfl
  | localWithdraw tag => exact reaches_lawful_of_box (b := .localWithdraw) k rfl
  | testRequest tag => exact reaches_lawful_of_box (b := .testRequest) k rfl
  | testRelease tag => exact reaches_lawful_of_box (b := .testRelease) k rfl
  | testStep tag x y => exact reaches_lawful_of_box (b := .testStep x y) k rfl
  | planBlock tag l => exact reaches_lawful_of_box (b := .planBlock l) k rfl
  | planCheck tag => exact reaches_lawful_of_box (b := .planCheck) k rfl
  | planActivate tag i v => exact reaches_lawful_of_box (b := .planActivate i v) k rfl
  | planCancel tag => exact reaches_lawful_of_box (b := .planCancel) k rfl
  | portIsolate tag => exact reaches_lawful_of_box (b := .portIsolate) k rfl
  | portRestore tag => exact reaches_lawful_of_box (b := .portRestore) k rfl
  | clearAcked tag => exact reaches_lawful_of_box (b := .clearAcked) k rfl
  | read tag x y => exact reaches_lawful_of_box (b := .read x y) k rfl
  -- the line and the Plan Store
  | telegramReceived p l us => exact reaches_lawful_of_completes rfl (k.opTelegram p l us)
  | planBlockWriteComplete => exact reaches_lawful_of_fixed k rfl (opWriteComplete_sects s)
  | fillReceived p => exact reaches_lawful_of_fixed k rfl (opFill_line p s).sects
  | complementBytes p => exact reaches_lawful_of_fixed k rfl (opComplement_line p s).sects
  | portActivityTimeout p => exact reaches_lawful_of_fixed k rfl (opPortTimeout_line p s).sects
  | checkingComplete p => exact reaches_lawful_of_fixed k rfl (opCheckingComplete_line p s).sects
  | errorTimeExpiry p => exact reaches_lawful_of_fixed k rfl (opErrorExpiry_line p s).sects
  | loopTimeExpiry p => exact reaches_lawful_of_fixed k rfl (opLoopExpiry_line p s).sects
  | transmitEnd p => exact reaches_lawful_of_fixed k rfl (opTransmitEnd_line p s).sects
  | statusPeriod => exact reaches_lawful_of_fixed k rfl (opStatusPeriod_line s).sects
  -- detection
  | dpSilenceDeadline i => exact reaches_lawful_of_completes rfl (k.opSilence i)
  | headChannelEdge i ch on us => exact reaches_lawful_of_completes rfl (k.opHeadEdge i ch on us)
  | headStuck i ch => exact reaches_lawful_of_completes rfl (k.opHeadStuck i ch)
  | oneChannelExpiry i => exact reaches_lawful_of_completes rfl (k.opOneChannelExpiry i)
  | restartedFlagClears => exact reaches_lawful_of_completes rfl k.opRestartedClears
  | headHeartbeat i => exact reaches_lawful_of_completes rfl (k.opHeartbeat i)
  -- demands, crossing, authority
  | startTimeTimer n => exact reaches_lawful_of_fixed k rfl ((tell_only _).sects.trans (eachDemand_sects s _))
  | standingDeadline n => exact reaches_lawful_of_fixed k rfl ((tell_only _).sects.trans (eachDemand_sects s _))
  | stateTimerDeadline => exact reaches_lawful_of_fixed k rfl (opStateTimer_only s).sects
  | exitTimerDeadline => exact reaches_lawful_of_fixed k rfl (opExitTimer_only s).sects
  | lampTestEnd => exact reaches_lawful_of_fixed k rfl (opLampTestEnd_only s).sects
  | keyEdge b => exact reaches_lawful_of_fixed k rfl (opKeyEdge_only b s).sects
  | panelCloseEdge b => exact reaches_lawful_of_fixed k rfl (opPanelClose_sects s b)
  | panelOpenEdge b => exact reaches_lawful_of_fixed k rfl (opPanelOpen_sects s b)
  -- lights, barrier, supply
  | zoneEdge b => exact reaches_lawful_of_fixed k rfl (opZoneEdge_only b s).sects
  | holdDeadline => exact reaches_lawful_of_fixed k rfl (opHoldDeadline_only s).sects
  | machineDetectorChange i u d b => exact reaches_lawful_of_fixed k rfl (opDetectorChange_only i u d b s).sects
  | leaveDeadline i => exact reaches_lawful_of_fixed k rfl (opLeaveDeadline_only i s).sects
  | travelDeadline i => exact reaches_lawful_of_fixed k rfl (opTravelDeadline_only i s).sects
  | halfPeriodEnd => exact reaches_lawful_of_fixed k rfl (opHalfPeriodEnd_only s).sects
  | lampSamplePoint v => exact reaches_lawful_of_fixed k rfl (opSamplePoint_only v s).sects
  | battLowEdge b => exact reaches_lawful_of_fixed k rfl (opBattLow_sects s b)
  | mainsOffEdge b => exact reaches_lawful_of_fixed k rfl (opMainsOff_sects s b)
  -- fault records
  | drainDeadline n => exact reaches_lawful_of_fixed k rfl (opDrain_sects s n)
  | ackDeadline n => exact reaches_lawful_of_fixed k rfl (opAckDeadline_sects s n)

theorem tick_sects (s : State) : s.tick.sects = s.sects := by
  obtain ⟨l, d, tick, -⟩ := tick_eq s
  rw [tick]
  rfl

end Lawful

/-- Settles O11: the tick leaves the sections alone, and each operation of a command that reaches them keeps the law of every
section. -/
theorem stepKeepsTheSectionLaw : Obligations.StepKeepsTheSectionLaw := by
  intro s t lawful h
  cases pending : s.pending with
  | nil =>
    obtain rfl : s.tick = t := Host.Outcome.next.inj ((step_of_idle pending).symm.trans h)
    exact SectsLawful.of_eq lawful (tick_sects s)
  | cons cmd rest =>
    have arm : exec cmd { s with pending := rest } = .next t := by
      rw [← h, step, pending]
    obtain ⟨u, reached, keeps⟩ := exec_keeps_sects (s := { s with pending := rest }) cmd lawful
    obtain rfl : u = t := Host.Outcome.next.inj (reached.symm.trans arm)
    exact keeps

end Sys2Proof.Machine

namespace Sys2Proof.Machine

open Sys2Proof

/-! ### What the laws of the crossing sequence read (R110, R113, R130) -/

/-- What the laws of the crossing sequence read of a state: of the crossing record all but the last directions and the
permission latch, of the authority record all but the requests, the enables and what a test step reports. -/
structure Skeleton where
  clock      : Time
  panelClose : Bool
  plan       : Option Plan
  crossing   : CrossingRec
  authority  : AuthorityRec
  dps        : Nat
  sects      : List SectRec
  demands    : List DemandRec

/-- The crossing record without the last directions and the permission latch (R112, R121). -/
def CrossingRec.bare (c : CrossingRec) : CrossingRec := { c with lastDir := Vector.replicate 4 none, remoteOpen := false }

/-- The authority record without requests, enables and what a test step reports (R131, R135 to R137, R140). -/
def AuthorityRec.bare (a : AuthorityRec) : AuthorityRec :=
  { a with prior := .auto, remoteRequest := false, testRequest := false, key := false, localRelease := false,
           outcome := .none, stepTag := 0 }

/-- The skeleton of a state. -/
def State.skeleton (s : State) : Skeleton where
  clock := s.clock
  panelClose := s.pins.panelClose
  plan := s.store.plan
  crossing := s.crossing.bare
  authority := s.authority.bare
  dps := s.dps.length
  sects := s.sects
  demands := s.demands

section Skeletons

variable (s : State)

@[simp] theorem report_skeleton (acts : List FaultAct) : (s.report acts).skeleton = s.skeleton := rfl
@[simp] theorem raise_skeleton (c : FaultCode) (src : FaultSource) (cls : FaultClass) :
    (s.raise c src cls).skeleton = s.skeleton := rfl
@[simp] theorem momentary_skeleton (c : FaultCode) (src : FaultSource) (cls : FaultClass) :
    (s.momentary c src cls).skeleton = s.skeleton := rfl
@[simp] theorem clear_skeleton (c : FaultCode) (src : FaultSource) : (s.clear c src).skeleton = s.skeleton := rfl
@[simp] theorem lightCommand_skeleton (c : LightCommand) : (s.lightCommand c).skeleton = s.skeleton := rfl
@[simp] theorem audibleCommand_skeleton (on : Bool) : (s.audibleCommand on).skeleton = s.skeleton := rfl
@[simp] theorem setLights_skeleton (l : Lights) : (s.setLights l).skeleton = s.skeleton := rfl
@[simp] theorem setMachine_skeleton (i : Fin 4) (r : MachineRec) : (s.setMachine i r).skeleton = s.skeleton := rfl
@[simp] theorem setZone_skeleton (z : ZoneRec) : (s.setZone z).skeleton = s.skeleton := rfl
@[simp] theorem onHead_skeleton (h : Fin 8) (f : HeadRec → HeadRec) : (s.onHead h f).skeleton = s.skeleton := rfl
@[simp] theorem owe_skeleton (h : Fin 8) : (s.owe h).skeleton = s.skeleton := rfl
@[simp] theorem clearRestarted_skeleton : s.clearRestarted.skeleton = s.skeleton := rfl
@[simp] theorem atMicros_skeleton (us : Nat) : (s.atMicros us).skeleton = s.skeleton := rfl
@[simp] theorem hear_skeleton : s.hear.skeleton = s.skeleton := rfl
@[simp] theorem raiseMachineFailed_skeleton (i : Fin 4) : (s.raiseMachineFailed i).skeleton = s.skeleton := rfl

theorem length_modifyAt {α : Type} (l : List α) (i : Nat) (f : α → α) : (modifyAt l i f).length = l.length := by
  induction l generalizing i with
  | nil => rfl
  | cons x l ih =>
    cases i with
    | zero => rfl
    | succ i => simp [modifyAt, ih]

@[simp] theorem setDp_skeleton (i : Nat) (r : DpRec) : (s.setDp i r).skeleton = s.skeleton := by
  simp [State.skeleton, length_modifyAt]

theorem LineOnly.skeleton {s t : State} (h : LineOnly s t) : t.skeleton = s.skeleton := by
  obtain ⟨f, l, b, n, rfl⟩ := h
  rfl

@[simp] theorem reply_skeleton (dest tag : Byte) (o : ReplyOutcome) (d : ReplyData) :
    (s.reply dest tag o d).skeleton = s.skeleton := (reply_line s dest tag o d).skeleton

@[simp] theorem replyOwner_skeleton (tag : Byte) : (s.replyOwner tag).skeleton = s.skeleton := reply_skeleton s _ _ _ _

@[simp] theorem count_skeleton (p : Port) (f : Counters → Counters) : (s.count p f).skeleton = s.skeleton :=
  (count_line s p f).skeleton

@[simp] theorem isolate_skeleton : s.isolate.skeleton = s.skeleton := (isolate_line s).skeleton

@[simp] theorem restorePort_skeleton : s.restorePort.skeleton = s.skeleton := (restorePort_line s).skeleton

/-- A machine command changes only the machine and its last direction. -/
@[simp] theorem sendMachine_skeleton (i : Fin 4) (d : Dir) : (s.sendMachine i d).skeleton = s.skeleton := by
  unfold State.sendMachine
  dsimp only
  split <;> rfl

@[simp] theorem putMachine_skeleton (i : Fin 4) (r : MachineRec) : (s.putMachine i r).skeleton = s.skeleton := by
  unfold State.putMachine
  dsimp only
  split <;> rfl

@[simp] theorem sendTo_skeleton (c : CrossingState) (i : Fin 4) : (State.sendTo c s i).skeleton = s.skeleton := by
  unfold State.sendTo
  repeat' split
  all_goals simp

@[simp] theorem sendAgain_skeleton (i : Fin 4) : (s.sendAgain i).skeleton = s.skeleton := by
  unfold State.sendAgain
  split <;> simp

@[simp] theorem beginWait_skeleton : s.beginWait.skeleton = s.skeleton := by
  unfold State.beginWait
  dsimp only
  split <;> rfl

@[simp] theorem endWait_skeleton : s.endWait.skeleton = s.skeleton := by
  unfold State.endWait
  dsimp only
  repeat' split
  all_goals rfl

@[simp] theorem clearSilent_skeleton (i : Nat) (was : DpState) : (s.clearSilent i was).skeleton = s.skeleton := by
  unfold State.clearSilent
  split <;> rfl

theorem foldl_skeleton {α : Type} {f : State → α → State} (h : ∀ s x, (f s x).skeleton = s.skeleton) (l : List α) :
    (l.foldl f s).skeleton = s.skeleton := by
  induction l generalizing s with
  | nil => rfl
  | cons x l ih => exact (ih _).trans (h s x)

/-! ### The local heads before their COUNT (R66 to R70) -/

variable (h : Fin 8)

@[simp] theorem oweHealth_skeleton : (s.oweHealth h).skeleton = s.skeleton := by
  unfold State.oweHealth
  split <;> rfl

@[simp] theorem oneChannel_skeleton : (s.oneChannel h).skeleton = s.skeleton := by simp [State.oneChannel]

@[simp] theorem stuck_skeleton : (s.stuck h).skeleton = s.skeleton := by simp [State.stuck]

theorem judgePulse_skeleton (ch : Channel) (limit : Nat) (p : Pulse) :
    (s.judgePulse h ch limit p).skeleton = s.skeleton := by
  have noise : (s.noisePulse h ch p.first).skeleton = s.skeleton := by
    unfold State.noisePulse
    split <;> simp
  have pair (t : State) (w : Pulse) : (t.pairPulses h ch p w).skeleton = t.skeleton := by
    unfold State.pairPulses
    dsimp only
    split <;> simp
  have valid : (s.validPulse h ch p).skeleton = s.skeleton := by
    unfold State.validPulse
    dsimp only
    repeat' split
    all_goals simp [pair]
  unfold State.judgePulse
  dsimp only
  repeat' split
  · exact noise
  · exact stuck_skeleton s h
  · exact valid

theorem headEdge_skeleton (ch : Channel) (on : Bool) (us : Nat) : (s.headEdge h ch on us).skeleton = s.skeleton := by
  unfold State.headEdge
  dsimp only
  repeat' split
  all_goals simp [judgePulse_skeleton]

end Skeletons

/-! ### The commands and events that leave the skeleton as it is -/

section Aside

variable (tag x y : Byte) (s : State)

@[simp] theorem faults_skeleton (f : FaultTable) : ({ s with faults := f } : State).skeleton = s.skeleton := rfl

@[simp] theorem lif_skeleton (l : Lif) : ({ s with lif := l } : State).skeleton = s.skeleton := rfl

@[simp] theorem pending_skeleton (b : Bool) :
    ({ s with store := { s.store with pending := b } } : State).skeleton = s.skeleton := rfl

@[simp] theorem write_skeleton (w : Option BlockWrite) :
    ({ s with store := { s.store with write := w } } : State).skeleton = s.skeleton := rfl

/-- The contents of a bank are no plan in force (R14, R21). -/
@[simp] theorem onStandby_skeleton (f : Bank → Bank) : (s.onStandby f).skeleton = s.skeleton := by
  unfold State.onStandby PlanStore.onBank
  split <;> rfl

@[simp] theorem cmdAckReport_skeleton : (cmdAckReport tag x y s).skeleton = s.skeleton := by
  unfold cmdAckReport
  repeat' split
  all_goals simp

@[simp] theorem cmdReportsStart_skeleton : (cmdReportsStart tag s).skeleton = s.skeleton := by simp [cmdReportsStart]

@[simp] theorem cmdReportsStop_skeleton : (cmdReportsStop tag s).skeleton = s.skeleton := by simp [cmdReportsStop]

@[simp] theorem cmdClassEnable_skeleton : (cmdClassEnable tag x y s).skeleton = s.skeleton := by
  unfold cmdClassEnable
  split <;> simp

@[simp] theorem cmdClearAcked_skeleton : (cmdClearAcked tag s).skeleton = s.skeleton := by simp [cmdClearAcked]

@[simp] theorem cmdResetLamp_skeleton : (cmdResetLamp tag x s).skeleton = s.skeleton := by
  unfold cmdResetLamp
  repeat' split
  all_goals simp

@[simp] theorem cmdPortIsolate_skeleton : (cmdPortIsolate tag s).skeleton = s.skeleton := by
  unfold cmdPortIsolate
  split <;> simp

@[simp] theorem cmdPortRestore_skeleton : (cmdPortRestore tag s).skeleton = s.skeleton := by
  unfold cmdPortRestore
  split <;> simp

@[simp] theorem cmdRead_skeleton : (cmdRead tag x y s).skeleton = s.skeleton := by
  unfold cmdRead
  split <;> simp

@[simp] theorem cmdPlanBlock_skeleton (args : List Byte) : (cmdPlanBlock tag args s).skeleton = s.skeleton := by
  unfold cmdPlanBlock
  repeat' split
  · simp
  · simp
  · simp
  · exact (write_skeleton (s.onStandby _) _).trans (onStandby_skeleton s _)

@[simp] theorem cmdPlanCheck_skeleton : (cmdPlanCheck tag s).skeleton = s.skeleton := by
  unfold cmdPlanCheck
  repeat' split
  all_goals simp

@[simp] theorem cmdPlanCancel_skeleton : (cmdPlanCancel tag s).skeleton = s.skeleton := by
  unfold cmdPlanCancel
  split <;> simp

theorem opWriteComplete_skeleton : (opWriteComplete s).skeleton = s.skeleton := by
  unfold opWriteComplete
  split
  · rfl
  · exact ((reply_skeleton _ _ _ _ _).trans (write_skeleton (s.onStandby _) _)).trans (onStandby_skeleton s _)

theorem opBattLow_skeleton (b : Bool) : (opBattLow b s).skeleton = s.skeleton := by
  unfold opBattLow
  dsimp only
  repeat' split
  all_goals rfl

theorem opMainsOff_skeleton (b : Bool) : (opMainsOff b s).skeleton = s.skeleton := by
  unfold opMainsOff
  dsimp only
  repeat' split
  all_goals rfl

theorem opDrain_skeleton (n : Fin 64) : (opDrain n s).skeleton = s.skeleton := by
  unfold opDrain
  split <;> rfl

theorem opAckDeadline_skeleton (n : Fin 64) : (opAckDeadline n s).skeleton = s.skeleton := by
  unfold opAckDeadline
  split <;> rfl

theorem opHalfPeriodEnd_skeleton : (opHalfPeriodEnd s).skeleton = s.skeleton := by
  unfold opHalfPeriodEnd
  split <;> rfl

theorem opSamplePoint_skeleton (v : Vector Nat 12) : (opSamplePoint v s).skeleton = s.skeleton := by
  unfold opSamplePoint
  dsimp only
  repeat' split
  all_goals rfl

theorem opHoldDeadline_skeleton : (opHoldDeadline s).skeleton = s.skeleton := by
  unfold opHoldDeadline
  dsimp only
  split <;> rfl

theorem heardBy_skeleton (p : Port) (t : Telegram) : (s.heardBy p t).skeleton = s.skeleton := by
  unfold State.heardBy
  split <;> rfl

theorem wrongSide_skeleton (p : Port) (i : Nat) (src : Byte) : (s.wrongSide p i src).skeleton = s.skeleton := by
  unfold State.wrongSide
  dsimp only
  split <;> simp

/-- The equipment at a swap: lights, machines, enables (R7, R155, R169). -/
theorem swapEquipment_skeleton (old : Option Plan) (new : Plan) : (s.swapEquipment old new).skeleton = s.skeleton := by
  have machine (t : State) (i : Fin 4) : (State.swapMachine old new t i).skeleton = t.skeleton := by
    unfold State.swapMachine
    dsimp only
    repeat' split
    case isTrue.isTrue => exact (sendMachine_skeleton _ i .raise).trans rfl
    all_goals rfl
  exact foldl_skeleton _ machine _

end Aside

end Sys2Proof.Machine

namespace Sys2Proof.Machine

open Sys2Proof

/-! ### Sections and demands changed before the Sequence Controller is told (R74, R109) -/

/-- `t` is `s` but for the sections and the demands, of which there are still as many as the plan has entries. -/
structure Retracked (s t : State) : Prop where
  skeleton : t.skeleton = { s.skeleton with sects := t.sects, demands := t.demands }
  records : RecordsMatchPlan s → RecordsMatchPlan t

theorem tables_of_plan {s t : State} (h : t.store.plan = s.store.plan) :
    t.dpTable = s.dpTable ∧ t.sectTable = s.sectTable ∧ t.approachTable = s.approachTable := by
  simp [State.dpTable, State.sectTable, State.approachTable, State.par, h]

theorem Retracked.mk' {s t : State} (h : t.skeleton = { s.skeleton with sects := t.sects, demands := t.demands })
    (sects : s.sects.length = s.sectTable.length → t.sects.length = s.sects.length)
    (demands : s.demands.length = s.approachTable.length → t.demands.length = s.demands.length) : Retracked s t := by
  refine ⟨h, fun ⟨hd, hs, ha⟩ => ?_⟩
  obtain ⟨dp, sect, approach⟩ := tables_of_plan (congrArg Skeleton.plan h : t.store.plan = s.store.plan)
  have dps : t.dps.length = s.dps.length := congrArg Skeleton.dps h
  exact ⟨by rw [dps, dp, hd], by rw [sects hs, sect, hs], by rw [demands ha, approach, ha]⟩

theorem length_eachDemand (s : State) (f : DemandCtx → DemandRec → DemandStep)
    (match_plan : s.demands.length = s.approachTable.length) : (s.eachDemand f).demands.length = s.demands.length := by
  cases plan : s.store.plan with
  | none => rw [eachDemand_of_noPlan plan]
  | some p =>
    have entries : s.demands.length = p.approaches.length := by
      simpa [State.approachTable, State.par, plan] using match_plan
    rw [eachDemand_of_plan plan]
    show ((s.demandSteps p f).map (·.1)).length = _
    rw [List.length_map, length_demandSteps, entries, Nat.min_self]

theorem eachDemand_skeleton (s : State) (f : DemandCtx → DemandRec → DemandStep) :
    (s.eachDemand f).skeleton = { s.skeleton with demands := (s.eachDemand f).demands } := by
  unfold State.eachDemand
  split <;> rfl

theorem eachDemand_retracked (s : State) (f : DemandCtx → DemandRec → DemandStep) : Retracked s (s.eachDemand f) :=
  .mk' (by rw [eachDemand_skeleton, eachDemand_sects]; rfl) (fun _ => by rw [eachDemand_sects]) (length_eachDemand s f)

/-- The sections replaced by as many, the reports made, and the demands told. -/
theorem sects_retracked (s : State) (x : List SectRec) (acts : List FaultAct) (old : List SectRec)
    (length : s.sects.length = s.sectTable.length → x.length = s.sects.length) :
    Retracked s ((State.report { s with sects := x } acts).demandsSeeSections old) := by
  refine .mk' ?_ (fun h => ?_) fun h => length_eachDemand _ _ h
  · rw [State.demandsSeeSections, eachDemand_skeleton, eachDemand_sects]
    rfl
  · rw [demandsSeeSections_sects]
    exact length h

theorem passage_told (s : State) (i : Nat) (dir : CountDir) (ev : Option Time) :
    ∃ u, Retracked s u ∧ s.passage i dir ev = u.tell := ⟨_, eachDemand_retracked s _, rfl⟩

theorem sectionEvent_told (s : State) (f : SectionEntry → SectRec → SectRec) :
    ∃ u, Retracked s u ∧ s.sectionEvent f = u.tell :=
  ⟨_, sects_retracked s _ _ _ fun h => by rw [length_zipWithList, ← h, Nat.min_self], rfl⟩

theorem restoreSection_told (s : State) (n mode : Nat) : ∃ u, Retracked s u ∧ s.restoreSection n mode = u.tell :=
  ⟨_, sects_retracked s _ _ _ fun _ => length_modifyAt _ _ _, rfl⟩

/-! ### A law of the crossing kept by detection, sections, demands and the swap -/

/-- The Plan Store and the records of detection, sections and demands after a swap (R21 to R23). -/
def State.recordsSwapped (s : State) : State :=
  State.swapRecords { s with store := s.store.swapped (planOf s.store.standby.image) } s.store.plan
    (planOf s.store.standby.image)

/-- The part of a swap that precedes the first COUNTs of newly named heads (R21 to R23). -/
def State.swapped (s : State) : State :=
  (s.recordsSwapped.swapEquipment s.store.plan (planOf s.store.standby.image)).swapCrossing

/-- What keeps a law of the crossing along every COUNT and the swap that may follow it. -/
structure Tracks (P : State → Prop) : Prop where
  reads : ∀ {s t : State}, P s → t.skeleton = s.skeleton → P t
  told : ∀ {s u : State}, P s → Retracked s u → P u.tell
  swapped : ∀ {s : State}, P s → s.activationCondition = true → P s.swapped

theorem foldl_keeps {α : Type} {f : State → α → State} {P : State → Prop} (keeps : ∀ s x, P s → P (f s x)) (l : List α)
    {s : State} (k : P s) : P (l.foldl f s) := by
  induction l generalizing s with
  | nil => exact k
  | cons x l ih => exact ih (keeps s x k)

theorem swapDue_conditions {s : State} (due : s.swapDue = true) :
    s.activationCondition = true ∧ s.owedCarried.activationCondition = true := by
  simp only [State.swapDue, Bool.and_eq_true] at due
  exact ⟨due.1.2, due.2⟩

section Tracking

variable {P : State → Prop} (law : Tracks P) {s : State}
include law

theorem Tracks.sectionEvent (k : P s) (f : SectionEntry → SectRec → SectRec) : P (s.sectionEvent f) := by
  obtain ⟨u, retracked, eq⟩ := sectionEvent_told s f
  rw [eq]
  exact law.told k retracked

theorem Tracks.passage (k : P s) (i : Nat) (dir : CountDir) (ev : Option Time) : P (s.passage i dir ev) := by
  obtain ⟨u, retracked, eq⟩ := passage_told s i dir ev
  rw [eq]
  exact law.told k retracked

theorem Tracks.restoreSection (k : P s) (n mode : Nat) : P (s.restoreSection n mode) := by
  obtain ⟨u, retracked, eq⟩ := restoreSection_told s n mode
  rw [eq]
  exact law.told k retracked

theorem Tracks.setDp (k : P s) (i : Nat) (r : DpRec) : P (s.setDp i r) := law.reads k (setDp_skeleton s i r)

theorem Tracks.clear (k : P s) (c : FaultCode) (src : FaultSource) : P (s.clear c src) := law.reads k (clear_skeleton s c src)

theorem Tracks.dpFailed (k : P s) (i : Nat) (was : DpState) (r : DpRec) : P (s.dpFailed i was r) := by
  unfold State.dpFailed
  dsimp only
  split
  · exact law.setDp k i _
  · exact law.reads (law.sectionEvent (law.setDp k i _) _) (clearSilent_skeleton _ i was)

theorem Tracks.dpBaseline (k : P s) (i : Nat) (d : Delivery) (was : DpState) (r : DpRec) : P (s.dpBaseline i d was r) := by
  unfold State.dpBaseline
  dsimp only
  split
  · exact law.dpFailed k i was _
  · exact law.reads (law.setDp k i _) (clearSilent_skeleton _ i was)

theorem Tracks.opSilence (k : P s) (i : Nat) : P (opSilence i s) := by
  unfold Machine.opSilence
  split
  · exact k
  · split
    · exact law.reads (law.sectionEvent (law.setDp k i _) _) rfl
    · exact k

section Told

variable {told : State → State} (keeps : ∀ t, P t → P (told t))
include keeps

theorem Tracks.handOnBy (k : P s) (i a b : Nat) (ev : Option Time) : P (s.handOnBy told i a b ev) := by
  have sects := keeps _ (law.sectionEvent k _ : P (s.countDelta i a b))
  have pass {t : State} (k : P t) (dir : CountDir) : P (told (t.handPassage s.dpTable i dir ev)) := by
    refine keeps _ ?_
    unfold State.handPassage
    split
    · exact k
    · exact law.passage k _ dir ev
  unfold State.handOnBy
  dsimp only
  split <;> split
  · exact sects
  · exact pass sects _
  · exact pass sects _
  · exact pass (pass sects _) _

theorem Tracks.dpCountBy (k : P s) (i : Nat) (d : Delivery) (timed handled : Bool) (r : DpRec) :
    P (s.dpCountBy told i d timed handled r) := by
  unfold State.dpCountBy
  dsimp only
  split
  · exact law.reads (law.sectionEvent (law.setDp k i _) _) rfl
  · split
    · exact law.sectionEvent (law.setDp k i _) _
    · unfold State.dpPlausibleBy
      dsimp only
      split
      · exact law.setDp k i _
      · exact law.handOnBy keeps (law.setDp k i _) i _ _ _

theorem Tracks.deliverBy (k : P s) (i : Nat) (d : Delivery) : P (s.deliverBy told i d) := by
  unfold State.deliverBy
  split
  · exact k
  · split
    · exact k
    · dsimp only
      split
      · exact law.dpBaseline k i d _ _
      · split
        · exact law.dpFailed k i _ _
        · split
          · exact law.dpCountBy keeps (law.clear (law.setDp k i _) _ _) i d _ _ _
          · exact law.dpCountBy keeps (law.clear (law.clear (law.setDp k i _) _ _) _ _) i d _ _ _
          · exact law.dpCountBy keeps k i d _ _ _

theorem Tracks.emitBy (k : P s) (h : Fin 8) : P (s.emitBy told h) := by
  unfold State.emitBy
  split
  · exact k
  · split
    · exact k
    · exact law.deliverBy keeps (law.reads k
        ((offerField_line _ _).skeleton.trans ((offerBox_line _ 3 _).skeleton.trans (onHead_skeleton s h _)))) _ _

end Told

/-! ### The swap (R20 to R23) -/

theorem Tracks.swap (k : P s) (condition : s.activationCondition = true) : P s.swap := by
  refine foldl_keeps (fun t h k => ?_) _ (law.swapped k condition)
  split
  · exact law.emitBy (fun _ => id) k h
  · exact k

theorem Tracks.owedCarried (k : P s) : P s.owedCarried := by
  refine foldl_keeps (fun t h k => ?_) _ k
  split
  · exact law.emitBy (fun _ => id) k h
  · exact k

theorem Tracks.swapIfDue (k : P s) : P s.swapIfDue := by
  unfold State.swapIfDue
  split
  next due => exact law.swap (law.owedCarried k) (swapDue_conditions due).2
  · exact k

/-! ### The COUNTs of the local heads (R66 to R72) -/

theorem Tracks.emit (k : P s) (h : Fin 8) : P (s.emit h) := law.emitBy (fun _ => law.swapIfDue) k h

theorem Tracks.carry (k : P s) (h : Fin 8) : P (s.carry h) := by
  unfold State.carry
  split
  · exact law.emit k h
  · exact k

theorem Tracks.carryNow (k : P s) (h : Fin 8) : P (s.carryNow h) := by
  unfold State.carryNow
  split
  · exact law.emit k h
  · exact k

theorem Tracks.carryAll (k : P s) : P s.carryAll := by
  unfold State.carryAll
  exact foldl_keeps (P := P) (f := State.carry) (fun _ h k => law.carry k h) _ k

theorem Tracks.resetHead (k : P s) (n : Nat) : P (s.resetHead n) := by
  unfold State.resetHead
  split
  next h =>
    have carried := law.carryNow k ⟨n, h⟩
    exact law.carryNow (law.reads carried ((oweHealth_skeleton _ _).trans (onHead_skeleton _ _ HeadRec.restored))) _
  · exact k

theorem Tracks.opHeadEdge (k : P s) (h : Fin 8) (ch : Channel) (on : Bool) (us : Nat) : P (opHeadEdge h ch on us s) :=
  law.carry (law.reads k (headEdge_skeleton s h ch on us)) h

theorem Tracks.opHeadStuck (k : P s) (h : Fin 8) (ch : Channel) : P (opHeadStuck h ch s) := by
  unfold Machine.opHeadStuck
  split
  · exact law.carry (law.reads k (stuck_skeleton s h)) h
  · exact law.carry k h

theorem Tracks.opOneChannelExpiry (k : P s) (h : Fin 8) : P (opOneChannelExpiry h s) := by
  unfold Machine.opOneChannelExpiry
  dsimp only
  split
  · exact law.carry (law.reads k ((owe_skeleton _ h).trans (onHead_skeleton s h _))) h
  · exact law.carry (law.reads k (onHead_skeleton s h _)) h

theorem Tracks.opHeartbeat (k : P s) (h : Fin 8) : P (opHeartbeat h s) := by
  unfold Machine.opHeartbeat
  split
  · exact law.emit k h
  · exact k

theorem Tracks.opRestartedClears (k : P s) : P (opRestartedClears s) := by
  unfold Machine.opRestartedClears
  split
  · exact law.carryAll (law.reads k (clearRestarted_skeleton s))
  · exact law.carryAll k

theorem Tracks.opStartTimeTimer (k : P s) (n : Nat) : P (opStartTimeTimer n s) := law.told k (eachDemand_retracked s _)

theorem Tracks.opStandingDeadline (k : P s) (n : Nat) : P (opStandingDeadline n s) := law.told k (eachDemand_retracked s _)

theorem Tracks.deliverLine (k : P s) (p : Port) (i : Nat) (x : Telegram) (body : CountBody) :
    P (s.deliverLine p i x body) := by
  unfold State.deliverLine
  dsimp only
  split
  · exact law.deliverBy (fun _ => law.swapIfDue)
      (law.reads (law.clear (law.reads k (lif_skeleton s _)) _ _) (count_skeleton _ p _)) i _
  · exact law.deliverBy (fun _ => law.swapIfDue) (law.reads k (count_skeleton s p _)) i _

theorem Tracks.checkDp (k : P s) (p : Port) (x : Telegram) : P (s.checkDp p x) := by
  unfold State.checkDp
  split
  · split
    · exact k
    · split
      · exact law.deliverLine k p _ x _
      · exact law.reads k (wrongSide_skeleton s p _ _)
  · exact k

end Tracking

/-! ### A law of the crossing kept by machines, the zone and the timers of a closure -/

/-- What keeps a law of the crossing along the changes that machines, the zone, the exit timer and test steps bring: each field
is one transition of the crossing. -/
structure Controls (P : State → Prop) : Prop where
  reads : ∀ {s t : State}, P s → t.skeleton = s.skeleton → P t
  opened : ∀ {s : State}, P s → s.crossing.state = .raising → P s.enterOpen
  stepEnded : ∀ {s : State} (o : StepOutcome), P s → s.authority.step ≠ .none → P (s.endStep o)
  raised : ∀ {s : State}, P s → s.crossing.state.isClosed = true → s.mayOpen = true → P (s.enter .raising)
  completed : ∀ {s : State} {c : CrossingState}, P s → s.crossing.state = .lowerExit → c.isClosed = true → P (s.enter c).elect
  moved : ∀ {s : State} {c : CrossingState}, P s → s.crossing.state.isClosed = true → c.isClosed = true → P (s.enter c)
  lowered : ∀ {s : State}, P s → s.crossing.state = .lowerEntry → s.crossing.exitRun = true →
    P { s.enter .lowerExit with crossing := { (s.enter .lowerExit).crossing with exitTimer := none } }
  returned : ∀ {s : State}, P s → s.crossing.state = .lowerExit → P (s.enterRecord .lowerEntry)
  exitRun : ∀ {s : State}, P s → s.crossing.exitTimer.isSome = true → P { s with crossing := { s.crossing with exitRun := true } }
  cycleRaises : ∀ {s : State} {i : Fin 4}, P s → s.authority.step = .machineCycle i →
    P { s with authority := { s.authority with phase := .raising } }

/-- The machine commands of an entry leave all but machines and last directions. -/
theorem enter_skeleton (s : State) (c : CrossingState) : (s.enter c).skeleton = (s.enterRecord c).skeleton :=
  foldl_skeleton _ (fun t i => sendTo_skeleton t c i) _

theorem state_of_skeleton {s t : State} (h : t.skeleton = s.skeleton) : t.crossing.state = s.crossing.state :=
  congrArg (fun k => k.crossing.state) h

theorem authority_of_skeleton {s t : State} (h : t.skeleton = s.skeleton) :
    t.authority.owner = s.authority.owner ∧ t.authority.changed = s.authority.changed ∧
      t.authority.step = s.authority.step ∧ t.authority.phase = s.authority.phase ∧
      t.authority.stepEnd = s.authority.stepEnd :=
  ⟨congrArg (fun k => k.authority.owner) h, congrArg (fun k => k.authority.changed) h,
    congrArg (fun k => k.authority.step) h, congrArg (fun k => k.authority.phase) h,
    congrArg (fun k => k.authority.stepEnd) h⟩

theorem enterRecord_state (s : State) (c : CrossingState) : (s.enterRecord c).crossing.state = c := by
  unfold State.enterRecord
  dsimp only
  cases c.light <;> rfl

theorem enter_state (s : State) (c : CrossingState) : (s.enter c).crossing.state = c :=
  (state_of_skeleton (enter_skeleton s c)).trans (enterRecord_state s c)

section Controlled

variable {P : State → Prop} (law : Controls P) {s : State}
include law

theorem Controls.openingCheck (k : P s) : P s.openingCheck := by
  unfold State.openingCheck
  split
  next may =>
    obtain ⟨isClosed, mayOpen⟩ := Bool.and_eq_true_iff.1 may
    have raising := law.raised k isClosed mayOpen
    unfold State.enterRaising
    dsimp only
    split
    · exact law.opened raising (enter_state s _)
    · exact raising
  · exact k

theorem Controls.tryComplete (k : P s) (state : s.crossing.state = .lowerExit) : P s.tryComplete := by
  unfold State.tryComplete
  split
  · unfold State.enterClosure
    dsimp only
    split
    · exact law.openingCheck (law.completed k state rfl)
    · exact law.openingCheck (law.completed k state rfl)
  · exact k

theorem Controls.tryLowerExit (k : P s) (state : s.crossing.state = .lowerEntry) : P s.tryLowerExit := by
  unfold State.tryLowerExit
  split
  next done =>
    split
    · exact law.reads k (beginWait_skeleton s)
    · exact law.tryComplete (law.lowered k state (Bool.and_eq_true_iff.1 done).2) (enter_state s _)
  · exact k

theorem Controls.machinesChanged (k : P s) : P s.machinesChanged := by
  unfold State.machinesChanged State.moveClosure
  split
  next state => exact law.tryLowerExit k state
  next state => exact law.tryComplete k state
  next state =>
    split
    · exact law.openingCheck (law.moved k (by rw [state]; rfl) rfl)
    · exact k
  next state =>
    split
    · exact law.openingCheck (law.moved k (by rw [state]; rfl) rfl)
    · exact k
  next state =>
    split
    · exact law.opened k state
    · exact k
  · exact k

theorem Controls.cycleEnd {i : Fin 4} (k : P s) (step : s.authority.step = .machineCycle i) : P (s.cycleEnd i) := by
  have runs : s.authority.step ≠ .none := by rw [step]; nofun
  unfold State.cycleEnd
  split
  · exact law.stepEnded _ k runs
  · exact law.stepEnded _ k runs
  · exact k

theorem Controls.cycleRaise {i : Fin 4} (k : P s) (step : s.authority.step = .machineCycle i) :
    P ((s.cycleRaise i).cycleEnd i) := by
  have raised := law.reads (law.cycleRaises k step) (sendMachine_skeleton _ i .raise)
  exact law.cycleEnd raised ((authority_of_skeleton (sendMachine_skeleton _ i .raise)).2.2.1.trans step)

theorem Controls.cycleAdvance (k : P s) (i : Fin 4) : P (s.cycleAdvance i) := by
  unfold State.cycleAdvance
  split
  next step =>
    split
    · exact law.cycleRaise k step
    · exact law.cycleEnd k step
  · exact k

theorem Controls.machineTold (k : P s) (i : Fin 4) : P (s.machineTold i) := by
  unfold State.machineTold
  split
  · exact law.cycleAdvance k i
  · exact law.machinesChanged k

theorem Controls.machineEvent (k : P s) (i : Fin 4) (r : MachineRec) : P (s.machineEvent i r) := by
  have put := law.reads k (putMachine_skeleton s i r)
  unfold State.machineEvent
  dsimp only
  split
  · exact law.machineTold put i
  · exact put

theorem Controls.zoneReturn (k : P s) (state : s.crossing.state = .lowerExit) : P s.zoneReturn := by
  have kept := foldl_skeleton (s.enterRecord .lowerEntry)
    (f := fun s i => if s.alreadyDown i then s else State.sendTo .lowerEntry s i)
    (fun t i => by split <;> simp) (List.finRange 4)
  have returned := law.reads (law.returned k state) kept
  have entered := state_of_skeleton kept
  rw [enterRecord_state] at entered
  have result := law.tryLowerExit returned entered
  exact result

theorem Controls.cycleZone (k : P s) : P s.cycleZone := by
  unfold State.cycleZone
  split
  next step =>
    split
    · exact law.cycleRaise k step
    · exact k
  · exact k

theorem Controls.zoneTold (k : P s) : P s.zoneTold := by
  unfold State.zoneTold
  split
  next state =>
    split
    · exact law.zoneReturn k state
    · exact k
  next state =>
    split
    · exact law.tryLowerExit k state
    · exact law.tryLowerExit (law.reads k (endWait_skeleton s)) ((state_of_skeleton (endWait_skeleton s)).trans state)
  · exact law.cycleZone k
  · exact k

theorem Controls.opZoneEdge (k : P s) (b : Bool) : P (opZoneEdge b s) := by
  unfold Machine.opZoneEdge
  split
  · exact k
  · exact law.zoneTold (law.reads k (setZone_skeleton s _))

theorem Controls.opDetectorChange (k : P s) (i : Fin 4) (up down boom : Bool) : P (opDetectorChange i up down boom s) := by
  unfold Machine.opDetectorChange
  dsimp only
  repeat' split
  · exact k
  · exact law.machineEvent k i _
  · exact law.reads k (setMachine_skeleton s i _)

theorem Controls.opLeaveDeadline (k : P s) (i : Fin 4) : P (opLeaveDeadline i s) := by
  unfold Machine.opLeaveDeadline
  dsimp only
  split
  · exact law.machineEvent k i _
  · exact k

theorem Controls.opTravelDeadline (k : P s) (i : Fin 4) : P (opTravelDeadline i s) := by
  unfold Machine.opTravelDeadline
  dsimp only
  split
  · exact law.machineEvent k i _
  · exact k

theorem Controls.opExitTimer (k : P s) : P (opExitTimer s) := by
  unfold Machine.opExitTimer
  split
  next timer =>
    have runs : s.crossing.exitTimer.isSome = true := by
      obtain ⟨reached, -⟩ := Bool.and_eq_true_iff.1 timer
      obtain ⟨d, set, -⟩ := (due_iff _ _).1 reached
      rw [set]
      rfl
    dsimp only
    split
    next state => exact law.tryLowerExit (law.exitRun k runs) state
    · exact law.exitRun k runs
  · exact k

theorem Controls.opLampTestEnd (k : P s) : P (opLampTestEnd s) := by
  unfold Machine.opLampTestEnd
  split
  next due =>
    obtain ⟨step, -⟩ := (lampTestDue_iff s).1 due
    exact law.stepEnded _ k (by rw [step]; nofun)
  · exact k

theorem Controls.resetMachine (k : P s) (i : Fin 4) : P (s.resetMachine i) := by
  unfold State.resetMachine
  dsimp only
  exact law.machineTold (law.reads k ((sendAgain_skeleton _ i).trans
    ((clear_skeleton _ _ _).trans (setMachine_skeleton s i _)))) i

end Controlled

end Sys2Proof.Machine

namespace Sys2Proof.Machine

open Sys2Proof

/-! ### A command from its start to its end -/

/-- The panel CLOSE level and the remote close latch, which are closure causes, may have changed (R113, R138, R139). -/
def Pressed (s t : State) : Prop :=
  ∃ level latch, t.skeleton =
    { s.skeleton with panelClose := level, crossing := { s.skeleton.crossing with remoteClose := latch } }

/-- A law of the crossing along one command taken in the state `s₀`. `D` is what holds of it while detection and the demands
act, `C` what holds at the end; they differ where the law speaks of the command as a whole. -/
structure Regime (s₀ : State) (D C : State → Prop) : Prop where
  tracks : Tracks D
  controls : Controls C
  begins : D s₀
  ends : ∀ {s : State}, D s → C s
  swapping : ∀ {s : State}, C s → s.activationCondition = true → D s
  auction : ∀ {s : State}, D s → C s.auction
  pressed : ∀ {s u : State}, D s → Pressed s u → C u.causesChanged
  panelRead : ∀ {s : State} (level : Bool), D s → s.authority.owner ≠ .localPanel →
    C { s with pins := { s.pins with panelClose := level } }
  begun : ∀ {s : State} (tag : Byte) (st : Step), s.skeleton = s₀.skeleton → s.crossing.state = .opened → st ≠ .none →
    C (s.beginStep tag st)
  timer : C (opStateTimer s₀)

theorem stepNamed_ne_none {s : State} {n m : Nat} {st : Step} (named : s.stepNamed n m = some st) : st ≠ .none := by
  unfold State.stepNamed at named
  repeat' split at named
  all_goals cases named <;> nofun

theorem opened_of_stepOutcome {s : State} {st : Step} (done : s.stepOutcome st = .done) : s.crossing.state = .opened := by
  by_contra other
  cases st <;> simp only [State.stepOutcome, if_pos other] at done
  all_goals repeat' split at done
  all_goals cases done

section Command

variable {D C : State → Prop} {s₀ s : State} (law : Regime s₀ D C)
include law

theorem Regime.start (same : s.skeleton = s₀.skeleton) : D s := law.tracks.reads law.begins same

/-- An operation that leaves the skeleton as it is, at the beginning of the command. -/
theorem Regime.aside (same : s.skeleton = s₀.skeleton) : C s := law.ends (law.start same)

theorem Regime.reply (k : C s) (dest tag : Byte) (o : ReplyOutcome) (d : ReplyData) : C (s.reply dest tag o d) :=
  law.controls.reads k (reply_skeleton s dest tag o d)

/-- The end of a step: the swap that is due, then what the line and the Report Engine do. -/
theorem Regime.settle (k : C s) : C s.settle := by
  refine law.controls.reads ?_ (finish_line _).skeleton
  unfold State.swapIfDue
  split
  next due => exact law.ends (law.tracks.swap (law.tracks.owedCarried (law.swapping k (swapDue_conditions due).1))
      (swapDue_conditions due).2)
  · exact k

/-! ### The commands of the signal box (R192) -/

theorem Regime.requests (k : D s) (f : AuthorityRec → AuthorityRec)
    (quiet : ∀ a, (f a).bare = a.bare) : C (s.requests f) := by
  unfold State.requests
  split
  · exact law.ends k
  · exact law.auction (law.tracks.reads k (congrArg (fun a => { s.skeleton with authority := a }) (quiet s.authority)))

theorem Regime.replyOwner (k : C s) (tag : Byte) : C (s.replyOwner tag) := law.controls.reads k (replyOwner_skeleton s tag)

theorem Regime.cmdRemoteRequest (k : D s) (tag : Byte) : C (cmdRemoteRequest tag s) := by
  unfold Machine.cmdRemoteRequest
  split
  · exact law.replyOwner (law.requests k _ (by exact fun _ => rfl)) tag
  · exact law.reply (law.ends k) _ _ _ _

theorem Regime.cmdTestRequest (k : D s) (tag : Byte) : C (cmdTestRequest tag s) := by
  unfold Machine.cmdTestRequest
  split
  · exact law.replyOwner (law.requests k _ (by exact fun _ => rfl)) tag
  · exact law.reply (law.ends k) _ _ _ _

theorem Regime.cmdLocalRelease (k : D s) (tag : Byte) : C (cmdLocalRelease tag s) := by
  unfold Machine.cmdLocalRelease
  split
  · exact law.replyOwner (law.requests k _ (by exact fun _ => rfl)) tag
  · exact law.reply (law.ends k) _ _ _ _

theorem Regime.cmdRemoteClose (k : D s) (tag : Byte) : C (cmdRemoteClose tag s) := by
  unfold Machine.cmdRemoteClose
  split
  · exact law.reply (law.pressed k ⟨s.pins.panelClose, true, rfl⟩) _ _ _ _
  · exact law.reply (law.ends k) _ _ _ _

theorem Regime.cmdRemoteOpen (k : D s) (tag : Byte) : C (cmdRemoteOpen tag s) := by
  unfold Machine.cmdRemoteOpen
  split
  · exact law.reply (law.pressed k ⟨s.pins.panelClose, false, rfl⟩) _ _ _ _
  · exact law.reply (law.ends k) _ _ _ _

theorem Regime.cmdRestoreSection (k : D s) (tag x y : Byte) : C (cmdRestoreSection tag x y s) := by
  unfold Machine.cmdRestoreSection
  split
  · exact law.reply (law.ends (law.tracks.restoreSection k _ _)) _ _ _ _
  · exact law.reply (law.ends k) _ _ _ _

theorem Regime.cmdResetHead (k : D s) (tag x : Byte) : C (cmdResetHead tag x s) := by
  unfold Machine.cmdResetHead
  split
  · exact law.reply (law.ends (law.tracks.resetHead k _)) _ _ _ _
  · exact law.reply (law.ends k) _ _ _ _

theorem Regime.cmdResetMachine (k : C s) (tag x : Byte) : C (cmdResetMachine tag x s) := by
  unfold Machine.cmdResetMachine
  dsimp only
  repeat' split
  · exact law.reply (law.controls.resetMachine k _) _ _ _ _
  · exact law.reply k _ _ _ _
  · exact law.reply k _ _ _ _

theorem Regime.cmdTestStep (same : s.skeleton = s₀.skeleton) (tag x y : Byte) : C (cmdTestStep tag x y s) := by
  unfold Machine.cmdTestStep
  split
  · exact law.reply (law.aside same) _ _ _ _
  · split
    · exact law.reply (law.aside same) _ _ _ _
    next named =>
      split
      next done => exact law.reply (law.begun _ _ same (opened_of_stepOutcome done) (stepNamed_ne_none named)) _ _ _ _
      · exact law.reply (law.aside same) _ _ _ _

theorem Regime.cmdPlanActivate (k : D s) (tag : Byte) (i v : Nat) : C (cmdPlanActivate tag i v s) := by
  have pending := law.tracks.reads k (pending_skeleton s true)
  unfold Machine.cmdPlanActivate
  dsimp only
  repeat' split
  · exact law.reply (law.ends k) _ _ _ _
  · exact law.reply (law.ends k) _ _ _ _
  · exact law.reply (law.ends k) _ _ _ _
  · exact law.reply (law.ends (law.tracks.swapIfDue pending)) _ _ _ _
  · exact law.reply (law.ends pending) _ _ _ _

/-- The commands of the box that leave the skeleton as it is are the rest. -/
theorem Regime.runCommand (same : s.skeleton = s₀.skeleton) (tag : Byte) (cmd : BoxCommand) : C (runCommand tag cmd s) := by
  have k := law.start same
  cases cmd with
  | planActivate i v => exact law.cmdPlanActivate k tag _ _
  | restoreSection x y => exact law.cmdRestoreSection k tag x y
  | resetMachine x => exact law.cmdResetMachine (law.ends k) tag x
  | resetHead x => exact law.cmdResetHead k tag x
  | remoteRequest => exact law.cmdRemoteRequest k tag
  | remoteRelease => exact law.replyOwner (law.requests k _ (by exact fun _ => rfl)) tag
  | remoteClose => exact law.cmdRemoteClose k tag
  | remoteOpen => exact law.cmdRemoteOpen k tag
  | localRelease => exact law.cmdLocalRelease k tag
  | localWithdraw => exact law.replyOwner (law.requests k _ (by exact fun _ => rfl)) tag
  | testRequest => exact law.cmdTestRequest k tag
  | testRelease => exact law.replyOwner (law.requests k _ (by exact fun _ => rfl)) tag
  | testStep x y => exact law.cmdTestStep same tag x y
  | _ => exact law.controls.reads (law.ends k) (by simp [Machine.runCommand])

theorem Regime.decodeAndRun (same : s.skeleton = s₀.skeleton) (body : List Byte) : C (decodeAndRun body s) := by
  have k := law.aside same
  unfold Machine.decodeAndRun
  split
  · split
    · exact law.reply k _ _ _ _
    · split
      · exact law.reply k _ _ _ _
      · exact law.runCommand same _ _
  · exact k

/-! ### Telegrams (R33 to R40) -/

theorem Regime.consume (same : s.skeleton = s₀.skeleton) (p : Port) (x : Telegram) : C (s.consume p x) := by
  have counted (q : Port) (f : Counters → Counters) : (s.count q f).skeleton = s₀.skeleton := (count_skeleton s q f).trans same
  unfold State.consume
  split
  · exact law.aside (counted p _)
  · split
    · exact law.decodeAndRun (counted .box _) _
    · exact law.reply (law.aside (counted p _)) _ _ _ _

theorem Regime.passOn (same : s.skeleton = s₀.skeleton) (p : Port) (x : Telegram) : C (s.passOn p x) := by
  have heard : (s.heardBy p x).skeleton = s₀.skeleton := (heardBy_skeleton s p x).trans same
  have relayed : ((s.heardBy p x).relay p x).skeleton = s₀.skeleton := (relay_line _ p x).skeleton.trans heard
  by_cases own : s.lif.station = some x.dest
  · rw [passOn_of_own own]
    exact law.consume heard p x
  · by_cases kind : x.kind = kindCount
    · rw [passOn_of_count own kind]
      exact law.ends (law.tracks.checkDp (law.start relayed) p x)
    · rw [passOn_of_relayed own kind]
      exact law.aside relayed

theorem Regime.opTelegram (p : Port) (bytes : List Byte) (us : Nat) : C (opTelegram p bytes us s₀) := by
  have at_us : (s₀.atMicros us).skeleton = s₀.skeleton := atMicros_skeleton s₀ us
  unfold Machine.opTelegram
  dsimp only
  split
  · exact law.aside rfl
  · split
    · exact law.aside ((formatFailure_line _ p).skeleton.trans at_us)
    next x _ =>
      have arrived : (((s₀.atMicros us).count p fun c => { c with received := up16 c.received }).activity p).skeleton =
          s₀.skeleton := (activity_line _ p).skeleton.trans ((count_skeleton _ p _).trans at_us)
      unfold State.accept
      dsimp only
      split
      · exact law.aside ((loopDiscard_line _ p).skeleton.trans arrived)
      · split
        · exact law.passOn arrived p x
        · exact law.aside ((count_skeleton _ p _).trans arrived)

/-! ### The supply and panel inputs (R113, R138) -/

theorem Regime.opKeyEdge (b : Bool) : C (opKeyEdge b s₀) := by
  unfold Machine.opKeyEdge
  split
  · exact law.aside rfl
  · exact law.auction (law.start rfl)

theorem Regime.opPanelClose (b : Bool) : C (opPanelClose b s₀) := by
  unfold Machine.opPanelClose
  dsimp only
  repeat' split
  · exact law.aside rfl
  · exact law.pressed law.begins ⟨b, s₀.crossing.remoteClose, rfl⟩
  next other => exact law.panelRead b law.begins other

theorem Regime.opPanelOpen (b : Bool) : C (opPanelOpen b s₀) := by
  unfold Machine.opPanelOpen
  dsimp only
  repeat' split
  · exact law.aside rfl
  · exact law.pressed law.begins ⟨s₀.pins.panelClose, s₀.crossing.remoteClose, rfl⟩
  · exact law.aside rfl

/-! ### A step -/

theorem Regime.reaches {cmd : Instr} {op : State → State} (arm : exec cmd s₀ = completes op s₀) (k : C (op s₀)) :
    Reaches cmd s₀ C := ⟨_, arm, law.settle k⟩

theorem Regime.reaches_aside {cmd : Instr} {op : State → State} (arm : exec cmd s₀ = completes op s₀)
    (same : (op s₀).skeleton = s₀.skeleton) : Reaches cmd s₀ C := law.reaches arm (law.aside same)

theorem Regime.reaches_line {cmd : Instr} {op : State → State} (arm : exec cmd s₀ = completes op s₀)
    (only : LineOnly s₀ (op s₀)) : Reaches cmd s₀ C := law.reaches_aside arm only.skeleton

theorem Regime.reaches_detection {cmd : Instr} {op : State → State} (arm : exec cmd s₀ = completes op s₀) (k : D (op s₀)) :
    Reaches cmd s₀ C := law.reaches arm (law.ends k)

theorem Regime.reaches_box {cmd : Instr} {tag : Byte} {b : BoxCommand}
    (arm : exec cmd s₀ = completes (boxCommand (Machine.runCommand tag b)) s₀) : Reaches cmd s₀ C :=
  law.reaches arm (law.runCommand (s := s₀.hear) rfl tag b)

/-- Every command but START keeps the law. -/
theorem Regime.exec_keeps {cmd : Instr} (other : cmd ≠ .start) : Reaches cmd s₀ C := by
  have d := law.begins
  have c := law.ends d
  cases cmd with
  | start => exact absurd rfl other
  -- the signal box
  | ackReport tag x y => exact law.reaches_box (b := .ackReport x y) rfl
  | reportsStart tag => exact law.reaches_box (b := .reportsStart) rfl
  | reportsStop tag => exact law.reaches_box (b := .reportsStop) rfl
  | classEnable tag x y => exact law.reaches_box (b := .classEnable x y) rfl
  | restoreSection tag x y => exact law.reaches_box (b := .restoreSection x y) rfl
  | resetEquipmentLamp tag x => exact law.reaches_box (b := .resetLamp x) rfl
  | resetEquipmentMachine tag x => exact law.reaches_box (b := .resetMachine x) rfl
  | resetEquipmentHead tag x => exact law.reaches_box (b := .resetHead x) rfl
  | remoteRequest tag => exact law.reaches_box (b := .remoteRequest) rfl
  | remoteRelease tag => exact law.reaches_box (b := .remoteRelease) rfl
  | remoteClose tag => exact law.reaches_box (b := .remoteClose) rfl
  | remoteOpen tag => exact law.reaches_box (b := .remoteOpen) rfl
  | localRelease tag => exact law.reaches_box (b := .localRelease) rfl
  | localWithdraw tag => exact law.reaches_box (b := .localWithdraw) rfl
  | testRequest tag => exact law.reaches_box (b := .testRequest) rfl
  | testRelease tag => exact law.reaches_box (b := .testRelease) rfl
  | testStep tag x y => exact law.reaches_box (b := .testStep x y) rfl
  | planBlock tag l => exact law.reaches_box (b := .planBlock l) rfl
  | planCheck tag => exact law.reaches_box (b := .planCheck) rfl
  | planActivate tag i v => exact law.reaches_box (b := .planActivate i v) rfl
  | planCancel tag => exact law.reaches_box (b := .planCancel) rfl
  | portIsolate tag => exact law.reaches_box (b := .portIsolate) rfl
  | portRestore tag => exact law.reaches_box (b := .portRestore) rfl
  | clearAcked tag => exact law.reaches_box (b := .clearAcked) rfl
  | read tag x y => exact law.reaches_box (b := .read x y) rfl
  -- the line and the Plan Store
  | telegramReceived p l us => exact law.reaches rfl (law.opTelegram p l us)
  | planBlockWriteComplete => exact law.reaches_aside rfl (opWriteComplete_skeleton s₀)
  | fillReceived p => exact law.reaches_line rfl (opFill_line p s₀)
  | complementBytes p => exact law.reaches_line rfl (opComplement_line p s₀)
  | portActivityTimeout p => exact law.reaches_line rfl (opPortTimeout_line p s₀)
  | checkingComplete p => exact law.reaches_line rfl (opCheckingComplete_line p s₀)
  | errorTimeExpiry p => exact law.reaches_line rfl (opErrorExpiry_line p s₀)
  | loopTimeExpiry p => exact law.reaches_line rfl (opLoopExpiry_line p s₀)
  | transmitEnd p => exact law.reaches_line rfl (opTransmitEnd_line p s₀)
  | statusPeriod => exact law.reaches_line rfl (opStatusPeriod_line s₀)
  -- detection and demands
  | dpSilenceDeadline i => exact law.reaches_detection rfl (law.tracks.opSilence d i)
  | headChannelEdge i ch on us => exact law.reaches_detection rfl (law.tracks.opHeadEdge d i ch on us)
  | headStuck i ch => exact law.reaches_detection rfl (law.tracks.opHeadStuck d i ch)
  | oneChannelExpiry i => exact law.reaches_detection rfl (law.tracks.opOneChannelExpiry d i)
  | restartedFlagClears => exact law.reaches_detection rfl (law.tracks.opRestartedClears d)
  | headHeartbeat i => exact law.reaches_detection rfl (law.tracks.opHeartbeat d i)
  | startTimeTimer n => exact law.reaches_detection rfl (law.tracks.opStartTimeTimer d n)
  | standingDeadline n => exact law.reaches_detection rfl (law.tracks.opStandingDeadline d n)
  -- the crossing and the authority
  | stateTimerDeadline => exact law.reaches rfl law.timer
  | exitTimerDeadline => exact law.reaches rfl (law.controls.opExitTimer c)
  | lampTestEnd => exact law.reaches rfl (law.controls.opLampTestEnd c)
  | keyEdge b => exact law.reaches rfl (law.opKeyEdge b)
  | panelCloseEdge b => exact law.reaches rfl (law.opPanelClose b)
  | panelOpenEdge b => exact law.reaches rfl (law.opPanelOpen b)
  -- lights, barrier, supply
  | zoneEdge b => exact law.reaches rfl (law.controls.opZoneEdge c b)
  | holdDeadline => exact law.reaches_aside rfl (opHoldDeadline_skeleton s₀)
  | machineDetectorChange i up down boom => exact law.reaches rfl (law.controls.opDetectorChange c i up down boom)
  | leaveDeadline i => exact law.reaches rfl (law.controls.opLeaveDeadline c i)
  | travelDeadline i => exact law.reaches rfl (law.controls.opTravelDeadline c i)
  | halfPeriodEnd => exact law.reaches_aside rfl (opHalfPeriodEnd_skeleton s₀)
  | lampSamplePoint v => exact law.reaches_aside rfl (opSamplePoint_skeleton s₀ v)
  | battLowEdge b => exact law.reaches_aside rfl (opBattLow_skeleton s₀ b)
  | mainsOffEdge b => exact law.reaches_aside rfl (opMainsOff_skeleton s₀ b)
  -- fault records
  | drainDeadline n => exact law.reaches_aside rfl (opDrain_skeleton s₀ n)
  | ackDeadline n => exact law.reaches_aside rfl (opAckDeadline_skeleton s₀ n)

end Command

/-- What a step does: the tick when no command waits, START, or another command. -/
theorem step_cases {s t : State} (h : step s = .next t) :
    (s.pending = [] ∧ t = s.tick) ∨ (∃ rest, s.pending = .start :: rest ∧
      t = (startPart { s with pending := rest }).settle) ∨
    ∃ cmd rest, s.pending = cmd :: rest ∧ cmd ≠ .start ∧ exec cmd { s with pending := rest } = .next t := by
  cases pending : s.pending with
  | nil => exact .inl ⟨rfl, Host.Outcome.next.inj (h.symm.trans (step_of_idle pending))⟩
  | cons cmd rest =>
    have arm : exec cmd { s with pending := rest } = .next t := by rw [← h, step, pending]
    by_cases start : cmd = .start
    · subst start
      exact .inr (.inl ⟨rest, rfl, (Host.Outcome.next.inj arm).symm⟩)
    · exact .inr (.inr ⟨cmd, rest, rfl, start, arm⟩)

end Sys2Proof.Machine

namespace Sys2Proof.Machine

open Sys2Proof

/-! ### The transitions of the crossing on its skeleton (R110 to R126, R133, R134) -/

/-- A crossing state entered now. -/
def Skeleton.inState (k : Skeleton) (c : CrossingState) : Skeleton :=
  { k with crossing := { k.crossing with state := c, entered := k.clock } }

/-- A change of owner now. -/
def Skeleton.ownedBy (k : Skeleton) (w : Owner) (latch : Bool) : Skeleton :=
  { k with crossing := { k.crossing with remoteClose := latch }
           authority := { k.authority with owner := w, changed := k.clock } }

section Transitions

variable (s : State)

theorem enterRecord_inState (c : CrossingState) : (s.enterRecord c).skeleton = s.skeleton.inState c := by
  unfold State.enterRecord
  dsimp only
  cases c.light <;> rfl

theorem enter_inState (c : CrossingState) : (s.enter c).skeleton = s.skeleton.inState c :=
  (enter_skeleton s c).trans (enterRecord_inState s c)

/-- The auction changes the owner, or nothing (R132, R133, R134). -/
theorem elect_owned : s.elect.skeleton = s.skeleton ∨
    s.locked = false ∧ ∃ w latch, s.elect.skeleton = s.skeleton.ownedBy w latch := by
  unfold State.elect
  by_cases locked : s.locked = true
  · rw [if_pos locked]
    exact .inl rfl
  · rw [if_neg locked]
    split
    · exact .inl rfl
    · exact .inr ⟨Bool.eq_false_iff.2 locked, s.winner, _, rfl⟩

/-- AMBER entered, its timer set (R114). -/
def Skeleton.inAmber (k : Skeleton) (timer : Time) : Skeleton :=
  { k.inState .amber with crossing := { (k.inState .amber).crossing with stateTimer := some timer } }

/-- LOWER_ENTRY entered with a new lowering start (R116, R124, R127). -/
def Skeleton.inLowerEntry (k : Skeleton) (begun timer : Time) : Skeleton :=
  { k.inState .lowerEntry with crossing :=
      { (k.inState .lowerEntry).crossing with stateTimer := none, loweringStart := some begun, exitTimer := some timer,
                                              exitRun := false } }

/-- OPEN entered, the closure at its end (R123). -/
def Skeleton.inOpen (k : Skeleton) : Skeleton :=
  { k.inState .opened with crossing := { (k.inState .opened).crossing with loweringStart := none } }

/-- No test step runs any more (R141 to R143). -/
def Skeleton.withoutStep (k : Skeleton) : Skeleton :=
  { k with authority := { k.authority with step := .none, phase := .none, stepEnd := none } }

theorem enterAmber_inState : ∃ timer, s.enterAmber.skeleton = s.skeleton.inAmber timer := by
  refine ⟨after (s.enter .amber).clock ((s.enter .amber).par 0 Plan.tAmber), ?_⟩
  rw [Skeleton.inAmber, ← enter_inState]
  rfl

theorem enterLowerEntry_inState : ∃ begun timer, s.enterLowerEntry.skeleton = s.skeleton.inLowerEntry begun timer := by
  refine ⟨(s.enter .lowerEntry).clock, after (s.enter .lowerEntry).clock ((s.enter .lowerEntry).par 0 Plan.tExit), ?_⟩
  rw [Skeleton.inLowerEntry, ← enter_inState]
  rfl

theorem relower_inState : ∃ begun timer, s.relower.skeleton = s.skeleton.inLowerEntry begun timer := enterLowerEntry_inState s

theorem abandonStep_withoutStep : s.abandonStep.skeleton = s.skeleton.withoutStep := by
  unfold State.abandonStep
  dsimp only
  split
  · split
    · exact sendMachine_skeleton _ _ _
    · rfl
  · rfl

/-- OPEN as it is entered, before the auction (R123). -/
def State.openEntered : State :=
  { s.enter .opened with crossing := { (s.enter .opened).crossing with loweringStart := none } }

theorem openEntered_skeleton : s.openEntered.skeleton = s.skeleton.inOpen := by
  rw [Skeleton.inOpen, ← enter_inState]
  rfl

theorem enterOpen_of_clear (clear : s.openEntered.elect.causes = []) : s.enterOpen = s.openEntered.elect :=
  if_pos (List.isEmpty_iff.2 clear)

theorem enterOpen_of_caused (caused : s.openEntered.elect.causes ≠ []) : s.enterOpen = s.openEntered.elect.enterAmber :=
  if_neg fun clear => caused (List.isEmpty_iff.1 clear)

/-- OPEN is entered with the auction, and a closure cause that then stands leads to AMBER (R123, R133, R114). -/
theorem enterOpen_cases : ∃ u : State, (u.skeleton = s.skeleton.inOpen ∨
      ∃ w latch, u.skeleton = s.skeleton.inOpen.ownedBy w latch) ∧
    (u.causes = [] ∧ s.enterOpen = u ∨ u.causes ≠ [] ∧ s.enterOpen = u.enterAmber) := by
  refine ⟨s.openEntered.elect, ?_, ?_⟩
  · rcases elect_owned s.openEntered with same | ⟨-, owned⟩
    · exact .inl (same.trans (openEntered_skeleton s))
    · rw [openEntered_skeleton] at owned
      exact .inr owned
  · by_cases clear : s.openEntered.elect.causes = []
    · exact .inl ⟨clear, enterOpen_of_clear s clear⟩
    · exact .inr ⟨clear, enterOpen_of_caused s clear⟩

/-- What a change of the closure causes leads to, in each state (R113, R114, R120, R124, R126). -/
theorem causesChanged_cases : s.causesChanged = s ∧ (s.causes = [] ∨ s.crossing.state ≠ .opened ∧
      s.crossing.state ≠ .testActive ∧ s.crossing.state ≠ .raising) ∨
    s.causes ≠ [] ∧ s.crossing.state = .opened ∧ s.causesChanged = s.enterAmber ∨
    s.causes ≠ [] ∧ s.crossing.state = .testActive ∧ s.causesChanged = s.enterAmber.abandonStep ∨
    s.causes ≠ [] ∧ s.crossing.state = .raising ∧ s.causesChanged = s.relower ∨
    s.crossing.state.isClosed = true ∧ s.causesChanged = s.openingCheck := by
  unfold State.causesChanged
  by_cases causes : s.causes = []
  · cases state : s.crossing.state <;> simp [causes, CrossingState.isClosed]
  · cases state : s.crossing.state <;> simp [causes, CrossingState.isClosed]

end Transitions

/-! ### The timers and the test step (R114 to R118, R125) -/

/-- The sequence law on the skeleton. -/
def Skeleton.Sequenced (k : Skeleton) : Prop :=
  TimersLaw k.crossing ∧ StepPhaseLaw k.authority ∧ (k.crossing.state = .testActive ↔ k.authority.step ≠ .none)

theorem sequenceLaw_iff (s : State) : SequenceLaw s ↔ s.skeleton.Sequenced := Iff.rfl

section Sequenced

variable {k : Skeleton}

/-- The owner and the latches are no matter of the sequence law. -/
theorem Skeleton.Sequenced.ownedBy (law : k.Sequenced) (w : Owner) (latch : Bool) : (k.ownedBy w latch).Sequenced := law

theorem Skeleton.Sequenced.inAmber (law : k.Sequenced) (state : k.crossing.state = .opened) (timer : Time) :
    (k.inAmber timer).Sequenced := by
  obtain ⟨⟨-, exit, -, -, lowering⟩, phase, test⟩ := law
  refine ⟨⟨?_, ?_, ?_, ?_, ?_⟩, phase, ?_⟩ <;> simp_all [Skeleton.inAmber, Skeleton.inState]

theorem Skeleton.Sequenced.abandoned (law : k.Sequenced) (state : k.crossing.state = .testActive) (timer : Time) :
    (k.inAmber timer).withoutStep.Sequenced := by
  obtain ⟨⟨-, exit, -, -, lowering⟩, -, -⟩ := law
  refine ⟨⟨?_, ?_, ?_, ?_, ?_⟩, ⟨rfl, rfl⟩, ?_⟩ <;>
    simp_all [Skeleton.inAmber, Skeleton.inState, Skeleton.withoutStep]

/-- A new lowering start sets every timer afresh. -/
theorem Skeleton.Sequenced.inLowerEntry (law : k.Sequenced) (state : k.crossing.state ≠ .testActive) (begun timer : Time) :
    (k.inLowerEntry begun timer).Sequenced := by
  obtain ⟨-, phase, test⟩ := law
  refine ⟨⟨?_, ?_, ?_, ?_, ?_⟩, phase, ?_⟩ <;> simp_all [Skeleton.inLowerEntry, Skeleton.inState]

theorem Skeleton.Sequenced.inOpen (law : k.Sequenced) (state : k.crossing.state = .raising) : k.inOpen.Sequenced := by
  obtain ⟨⟨timer, exit, -, -, -⟩, phase, test⟩ := law
  refine ⟨⟨?_, ?_, ?_, ?_, ?_⟩, phase, ?_⟩ <;> simp_all [Skeleton.inOpen, Skeleton.inState]

theorem Skeleton.Sequenced.stepEnded (law : k.Sequenced) (step : k.authority.step ≠ .none) : k.withoutStep.inOpen.Sequenced := by
  obtain ⟨⟨timer, exit, -, -, -⟩, -, test⟩ := law
  have state := test.2 step
  refine ⟨⟨?_, ?_, ?_, ?_, ?_⟩, ⟨rfl, rfl⟩, ?_⟩ <;> simp_all [Skeleton.withoutStep, Skeleton.inOpen, Skeleton.inState]

/-- CLOSED, DEGRADED and RAISING use no timer, and the lowering start stands in them (R118 to R120). -/
theorem Skeleton.Sequenced.inClosure (law : k.Sequenced) {c : CrossingState}
    (state : k.crossing.state = .lowerExit ∨ k.crossing.state.isClosed = true) (entered : c.isClosed = true ∨ c = .raising) :
    (k.inState c).Sequenced := by
  rw [isClosed_iff] at state entered
  obtain ⟨⟨timer, exit, -, -, lowering⟩, phase, test⟩ := law
  have left : k.crossing.state ≠ .amber ∧ k.crossing.state ≠ .redLead ∧ k.crossing.state ≠ .lowerEntry ∧
      k.crossing.state ≠ .testActive := by rcases state with state | state | state <;> simp [state]
  have begun : k.crossing.loweringStart.isSome = true := by
    refine lowering.2 ?_
    rcases state with state | state | state <;> simp [state]
  have reached : c ≠ .amber ∧ c ≠ .redLead ∧ c ≠ .lowerEntry ∧ c ≠ .lowerExit ∧ c ≠ .testActive ∧
      (c = .closed ∨ c = .degraded ∨ c = .raising) := by rcases entered with (rfl | rfl) | rfl <;> simp
  refine ⟨⟨?_, ?_, ?_, ?_, ?_⟩, phase, ?_⟩ <;> simp_all [Skeleton.inState]

theorem Skeleton.Sequenced.inLowerExit (law : k.Sequenced) (state : k.crossing.state = .lowerEntry)
    (run : k.crossing.exitRun = true) :
    Skeleton.Sequenced { k.inState .lowerExit with crossing := { (k.inState .lowerExit).crossing with exitTimer := none } } := by
  obtain ⟨⟨timer, -, -, -, lowering⟩, phase, test⟩ := law
  refine ⟨⟨?_, ?_, ?_, ?_, ?_⟩, phase, ?_⟩ <;> simp_all [Skeleton.inState]

/-- The return to LOWER_ENTRY finds T_exit run (R118). -/
theorem Skeleton.Sequenced.returned (law : k.Sequenced) (state : k.crossing.state = .lowerExit) :
    (k.inState .lowerEntry).Sequenced := by
  obtain ⟨⟨timer, exit, -, run, lowering⟩, phase, test⟩ := law
  refine ⟨⟨?_, ?_, ?_, ?_, ?_⟩, phase, ?_⟩ <;> simp_all [Skeleton.inState]

theorem Skeleton.Sequenced.inTest (law : k.Sequenced) (state : k.crossing.state = .opened) {a : AuthorityRec}
    (phase : StepPhaseLaw a) (step : a.step ≠ .none) :
    Skeleton.Sequenced { k.inState .testActive with authority := a } := by
  obtain ⟨⟨timer, exit, -, -, lowering⟩, -, -⟩ := law
  refine ⟨⟨?_, ?_, ?_, ?_, ?_⟩, phase, ?_⟩ <;> simp_all [Skeleton.inState]

theorem Skeleton.Sequenced.inRedLead (law : k.Sequenced) (state : k.crossing.state = .amber) (timer : Time) :
    Skeleton.Sequenced
      { k.inState .redLead with crossing := { (k.inState .redLead).crossing with stateTimer := some timer } } := by
  obtain ⟨⟨-, exit, -, -, lowering⟩, phase, test⟩ := law
  refine ⟨⟨?_, ?_, ?_, ?_, ?_⟩, phase, ?_⟩ <;> simp_all [Skeleton.inState]

end Sequenced

section SequenceLaw

variable {s t : State}

theorem SequenceLaw.skeleton (law : SequenceLaw s) : s.skeleton.Sequenced := law

theorem SequenceLaw.reads (law : SequenceLaw s) (same : t.skeleton = s.skeleton) : SequenceLaw t := by
  rw [sequenceLaw_iff, same]
  exact law

/-- OPEN entered from a state whose entry to OPEN is lawful. -/
theorem sequenceLaw_enterOpen (law : s.skeleton.inOpen.Sequenced) : SequenceLaw s.enterOpen := by
  obtain ⟨u, elected, ends⟩ := enterOpen_cases s
  have opened : u.skeleton.Sequenced := by
    rcases elected with same | ⟨w, latch, owned⟩
    · rw [same]
      exact law
    · rw [owned]
      exact law.ownedBy w latch
  have state : u.skeleton.crossing.state = .opened := by
    rcases elected with same | ⟨w, latch, owned⟩
    · rw [same]
      rfl
    · rw [owned]
      rfl
  rcases ends with ⟨-, eq⟩ | ⟨-, eq⟩
  · rw [eq]
    exact opened
  · obtain ⟨timer, amber⟩ := enterAmber_inState u
    rw [eq, sequenceLaw_iff, amber]
    exact opened.inAmber state timer

theorem SequenceLaw.elect (law : SequenceLaw s) : SequenceLaw s.elect := by
  rcases elect_owned s with same | ⟨-, w, latch, owned⟩
  · exact law.reads same
  · rw [sequenceLaw_iff, owned]
    exact law.skeleton.ownedBy w latch

theorem sequenceLaw_controls : Controls SequenceLaw where
  reads := SequenceLaw.reads
  opened law state := sequenceLaw_enterOpen (law.skeleton.inOpen state)
  stepEnded _ law step := sequenceLaw_enterOpen (law.skeleton.stepEnded step)
  raised {s} law state _ := by
    rw [sequenceLaw_iff, enter_inState]
    exact law.skeleton.inClosure (.inr state) (.inr rfl)
  completed {s c} law state closed := by
    refine SequenceLaw.elect ?_
    rw [sequenceLaw_iff, enter_inState]
    exact law.skeleton.inClosure (.inl state) (.inl closed)
  moved {s c} law state closed := by
    rw [sequenceLaw_iff, enter_inState]
    exact law.skeleton.inClosure (.inr state) (.inl closed)
  lowered {s} law state run := by
    have entered := law.skeleton.inLowerExit state run
    rw [← enter_inState] at entered
    exact entered
  returned {s} law state := by
    rw [sequenceLaw_iff, enterRecord_inState]
    exact law.skeleton.returned state
  exitRun {s} law timer := by
    obtain ⟨⟨state, exit, -, -, lowering⟩, phase, test⟩ := law
    exact ⟨⟨state, exit, fun _ => .inr rfl, fun _ => rfl, lowering⟩, phase, test⟩
  cycleRaises {s i} law step := by
    obtain ⟨timers, phase, test⟩ := law
    refine ⟨timers, ?_, test⟩
    unfold StepPhaseLaw at phase ⊢
    rw [step] at phase
    simp [step, phase.2]

/-- A change of the closure causes keeps the law in every state. -/
theorem SequenceLaw.causesChanged (law : SequenceLaw s) : SequenceLaw s.causesChanged := by
  rcases causesChanged_cases s with ⟨eq, -⟩ | ⟨-, state, eq⟩ | ⟨-, state, eq⟩ | ⟨-, state, eq⟩ | ⟨-, eq⟩
  · rw [eq]
    exact law
  · obtain ⟨timer, amber⟩ := enterAmber_inState s
    rw [eq, sequenceLaw_iff, amber]
    exact law.skeleton.inAmber state timer
  · obtain ⟨timer, amber⟩ := enterAmber_inState s
    rw [eq, sequenceLaw_iff, abandonStep_withoutStep, amber]
    exact law.skeleton.abandoned state timer
  · obtain ⟨begun, timer, lowered⟩ := relower_inState s
    rw [eq, sequenceLaw_iff, lowered]
    refine law.skeleton.inLowerEntry ?_ begun timer
    show s.crossing.state ≠ .testActive
    rw [state]
    nofun
  · rw [eq]
    exact sequenceLaw_controls.openingCheck law

/-- What the law does not read has changed. -/
theorem SequenceLaw.crossing (law : SequenceLaw s) {latch : Bool} {dv : List DemandView} {iv : List IslandView}
    (crossing : t.crossing.bare = { s.crossing.bare with demandView := dv, islandView := iv, remoteClose := latch })
    (authority : t.authority.bare = s.authority.bare) : SequenceLaw t := by
  show Skeleton.Sequenced { t.skeleton with crossing := t.crossing.bare, authority := t.authority.bare }
  rw [crossing, authority]
  exact law

/-- The clock, the plan and the track are no matter of the law. -/
theorem SequenceLaw.beside (law : SequenceLaw s) {now : Time} {p : Option Plan} {n : Nat} {x : List SectRec}
    {d : List DemandRec}
    (same : t.skeleton = { s.skeleton with clock := now, plan := p, dps := n, sects := x, demands := d }) : SequenceLaw t := by
  rw [sequenceLaw_iff, same]
  exact law

theorem SequenceLaw.tell (law : SequenceLaw s) : SequenceLaw s.tell := by
  unfold State.tell
  dsimp only
  split
  · exact law
  · exact SequenceLaw.causesChanged (law.crossing rfl rfl)

theorem SequenceLaw.auction (law : SequenceLaw s) : SequenceLaw s.auction := by
  unfold State.auction
  dsimp only
  split
  · exact law.elect
  · exact law.elect.causesChanged

theorem SequenceLaw.swapCrossing (law : SequenceLaw s) : SequenceLaw s.swapCrossing := by
  have onward {u : State} (law : SequenceLaw u) (c : CrossingRec)
      (views : c.bare = { u.crossing.bare with demandView := c.demandView, islandView := c.islandView }) :
      SequenceLaw ((State.elect { u with crossing := c }).forceDoubtful.tell.causesChanged) := by
    have elected : SequenceLaw (State.elect { u with crossing := c }) := SequenceLaw.elect (law.crossing views rfl)
    exact SequenceLaw.causesChanged (SequenceLaw.tell (elected.beside (eachDemand_skeleton _ _)))
  unfold State.swapCrossing
  dsimp only
  split
  next state =>
    obtain ⟨begun, timer, lowered⟩ := enterLowerEntry_inState s
    have entered : SequenceLaw s.enterLowerEntry := by
      rw [sequenceLaw_iff, lowered]
      refine law.skeleton.inLowerEntry ?_ begun timer
      show s.crossing.state ≠ .testActive
      rw [state]
      nofun
    exact onward (entered.reads (clear_skeleton _ _ _)) _ rfl
  · exact onward law _ rfl

theorem sequenceLaw_tracks : Tracks SequenceLaw where
  reads := SequenceLaw.reads
  told law retracked := SequenceLaw.tell (SequenceLaw.beside law retracked.skeleton)
  swapped {s} law _ := by
    have records : SequenceLaw s.recordsSwapped := SequenceLaw.beside law rfl
    exact SequenceLaw.swapCrossing (records.reads (swapEquipment_skeleton _ _ _))

theorem SequenceLaw.beginStep (law : SequenceLaw s) (state : s.crossing.state = .opened) (tag : Byte) {st : Step}
    (named : st ≠ .none) : SequenceLaw (s.beginStep tag st) := by
  have inTest {u : State} {a : AuthorityRec} (phase : StepPhaseLaw a) (step : a.step ≠ .none)
      (same : u.skeleton = State.skeleton { s.enter .testActive with authority := a }) : SequenceLaw u := by
    rw [sequenceLaw_iff, same]
    show Skeleton.Sequenced { (s.enter .testActive).skeleton with authority := a.bare }
    rw [enter_inState]
    exact law.skeleton.inTest state phase step
  cases st with
  | none => exact absurd rfl named
  | lampTest =>
    refine inTest (a := { (s.enter .testActive).authority with
      step := .lampTest, phase := .flashing, outcome := .none, stepTag := tag, stepEnd := _ }) ⟨rfl, rfl⟩ nofun rfl
  | machineCycle i =>
    exact inTest (a := { (s.enter .testActive).authority with
      step := .machineCycle i, phase := .lowering, stepEnd := none, outcome := .none, stepTag := tag }) ⟨.inl rfl, rfl⟩ nofun
      (sendMachine_skeleton _ i .lower)

theorem SequenceLaw.opStateTimer (law : SequenceLaw s) : SequenceLaw (opStateTimer s) := by
  unfold Machine.opStateTimer
  split
  · split
    next state =>
      have entered := law.skeleton.inRedLead state (after (s.enter .redLead).clock ((s.enter .redLead).par 0 Plan.tRed))
      rw [← enter_inState] at entered
      exact entered
    next state =>
      obtain ⟨begun, timer, lowered⟩ := enterLowerEntry_inState s
      rw [sequenceLaw_iff, lowered]
      refine law.skeleton.inLowerEntry ?_ begun timer
      show s.crossing.state ≠ .testActive
      rw [state]
      nofun
    · exact law
  · exact law

/-- The timers and the test step along one command. -/
theorem sequenceLaw_regime (law : SequenceLaw s) : Regime s SequenceLaw SequenceLaw where
  tracks := sequenceLaw_tracks
  controls := sequenceLaw_controls
  begins := law
  ends := id
  swapping law _ := law
  auction := SequenceLaw.auction
  pressed := fun law ⟨_, _, same⟩ => SequenceLaw.causesChanged
    (SequenceLaw.crossing law (congrArg Skeleton.crossing same) (congrArg Skeleton.authority same))
  panelRead _ law _ := law
  begun tag _ same state named := (law.reads same).beginStep state tag named
  timer := law.opStateTimer

end SequenceLaw

end Sys2Proof.Machine

namespace Sys2Proof.Machine

open Sys2Proof

/-! ### START and the tick -/

/-- The views read afresh (R110). -/
def State.viewed (s : State) : State :=
  { s with crossing := { s.crossing with demandView := s.demandsNow, islandView := s.islandsNow } }

/-- What START hands out is lights and machine commands (R111, R127). -/
theorem startOutputs_skeleton (s : State) : s.startOutputs.skeleton = s.viewed.skeleton := by
  have lowered (t : State) : (if t.crossing.state = .noPlan then t.lowerAll else t).skeleton = t.skeleton := by
    split
    · exact foldl_skeleton t (fun u i => sendMachine_skeleton u i .lower) _
    · rfl
  unfold State.startOutputs State.viewed
  generalize { s with crossing := { s.crossing with demandView := s.demandsNow, islandView := s.islandsNow } } = u
  dsimp only
  cases u.crossing.state.light with
  | none => exact (lowered (u.audibleCommand _)).trans rfl
  | some l => exact (lowered ((u.lightCommand l).audibleCommand _)).trans rfl

theorem Tracks.settle {P : State → Prop} (law : Tracks P) {s : State} (k : P s) : P s.settle :=
  law.reads (law.swapIfDue k) (finish_line _).skeleton

/-- START: its records with the views read, then a COUNT of every head (R4, R72). -/
theorem Tracks.startPart {P : State → Prop} (law : Tracks P) {s : State} (k : P s.stopWrite.cleared.viewed) :
    P (startPart s) := by
  have handed := law.reads k (startOutputs_skeleton (s.stopWrite.cleared.report (startActs s.stopWrite.cleared)))
  unfold Machine.startPart State.emitAll
  exact foldl_keeps (P := P) (f := State.emit) (fun _ h k => law.emit k h) _ handed

theorem tick_skeleton (s : State) : s.tick.skeleton = { s.skeleton with clock := s.advance.clock } := by
  obtain ⟨l, d, tick, -⟩ := tick_eq s
  rw [tick]
  rfl

/-- The records START sets obey the sequence law (R110, R114, R130). -/
theorem sequenceLaw_started (s : State) : SequenceLaw s.cleared.viewed := by
  refine ⟨?_, ⟨rfl, rfl⟩, ?_⟩
  · show TimersLaw { CrossingRec.start s.cleared.store.plan with demandView := _, islandView := _ }
    cases s.cleared.store.plan <;> simp [TimersLaw, CrossingRec.start]
  · show (CrossingRec.start s.cleared.store.plan).state = .testActive ↔ Step.none ≠ .none
    cases s.cleared.store.plan <;> simp [CrossingRec.start]

theorem step_keeps_sequenceLaw {s t : State} (law : SequenceLaw s) (h : step s = .next t) : SequenceLaw t := by
  rcases step_cases h with ⟨-, ticked⟩ | ⟨rest, -, started⟩ | ⟨cmd, rest, -, other, arm⟩
  · rw [ticked, sequenceLaw_iff, tick_skeleton]
    exact law
  · rw [started]
    exact sequenceLaw_tracks.settle (sequenceLaw_tracks.startPart (sequenceLaw_started _))
  · obtain ⟨u, reached, keeps⟩ := (sequenceLaw_regime (s := { s with pending := rest }) law).exec_keeps other
    obtain rfl : u = t := Host.Outcome.next.inj (reached.symm.trans arm)
    exact keeps

/-! ### The owner along one command (R132, R133) -/

/-- The crossing is OPEN, or has gone on from OPEN to AMBER now (R133, R134). -/
def CrossingRec.OpenNow (c : CrossingRec) (now : Time) : Prop := c.state = .opened ∨ c.state = .amber ∧ c.entered = now

/-- The lock is free, or the crossing has gone on from OPEN to AMBER, or from a closure to RAISING, now (R132, R133). -/
def CrossingRec.FreeNow (c : CrossingRec) (now : Time) : Prop :=
  c.state.unlocked = true ∨ (c.state = .amber ∨ c.state = .raising) ∧ c.entered = now

theorem CrossingRec.OpenNow.free {c : CrossingRec} {now : Time} (h : c.OpenNow now) : c.FreeNow now := by
  rcases h with state | ⟨state, entered⟩
  · exact .inl (by rw [state]; rfl)
  · exact .inr ⟨.inl state, entered⟩

/-- The owner is still `o`, or it has changed now, where the lock was free before (`free`) or the crossing is as `may` says. -/
def Skeleton.Owned (o : Owner) (free : Prop) (may : CrossingRec → Time → Prop) (k : Skeleton) : Prop :=
  k.authority.owner = o ∨ k.authority.changed = k.clock ∧ (free ∨ may k.crossing k.clock)

section Owned

variable {o : Owner} {free : Prop} {may may' : CrossingRec → Time → Prop} {k m : Skeleton}

/-- The crossing has moved to where the law lets the owner change; the owner and the clock stand. -/
theorem Skeleton.Owned.moved (law : k.Owned o free may) (owner : m.authority.owner = k.authority.owner)
    (changed : m.authority.changed = k.authority.changed) (clock : m.clock = k.clock) (there : may' m.crossing m.clock) :
    m.Owned o free may' := by
  rcases law with same | ⟨now, -⟩
  · exact .inl (owner.trans same)
  · exact .inr ⟨changed.trans (now.trans clock.symm), .inr there⟩

/-- From where the law lets no owner change, none has been made but under a free lock before. -/
theorem Skeleton.Owned.still (law : k.Owned o free may) (owner : m.authority.owner = k.authority.owner)
    (changed : m.authority.changed = k.authority.changed) (clock : m.clock = k.clock) (never : ¬ may k.crossing k.clock) :
    m.Owned o free may' := by
  rcases law with same | ⟨now, was | there⟩
  · exact .inl (owner.trans same)
  · exact .inr ⟨changed.trans (now.trans clock.symm), .inl was⟩
  · exact absurd there never

theorem Skeleton.Owned.mono (law : k.Owned o free may) (weaker : ∀ {c now}, may c now → may' c now) : k.Owned o free may' :=
  law.imp_right fun ⟨now, there⟩ => ⟨now, there.imp_right weaker⟩

theorem owned_ownedBy (k : Skeleton) (w : Owner) (latch : Bool) (there : may (k.ownedBy w latch).crossing k.clock) :
    (k.ownedBy w latch).Owned o free may := .inr ⟨rfl, .inr there⟩

end Owned

section OwnerLaw

variable {o : Owner} {free : Prop} {may : CrossingRec → Time → Prop} {s u : State}

/-- OPEN is where the owner may change; with a cause it goes on to AMBER now. -/
theorem owned_enterOpen (law : s.skeleton.Owned o free may) : s.enterOpen.skeleton.Owned o free CrossingRec.OpenNow := by
  obtain ⟨u, elected, ends⟩ := enterOpen_cases s
  have opened : u.skeleton.Owned o free CrossingRec.OpenNow := by
    rcases elected with same | ⟨w, latch, owned⟩
    · rw [same]
      exact law.moved rfl rfl rfl (.inl rfl)
    · rw [owned]
      exact owned_ownedBy _ w latch (.inl rfl)
  rcases ends with ⟨-, eq⟩ | ⟨-, eq⟩
  · rw [eq]
    exact opened
  · obtain ⟨timer, amber⟩ := enterAmber_inState u
    rw [eq, amber]
    exact opened.moved rfl rfl rfl (.inr ⟨rfl, rfl⟩)

/-- In CLOSED and DEGRADED the auction may change the owner. -/
theorem owned_elect_of_free (law : s.skeleton.Owned o free may) (state : s.crossing.state.unlocked = true) :
    s.elect.skeleton.Owned o free CrossingRec.FreeNow := by
  rcases elect_owned s with same | ⟨-, w, latch, owned⟩
  · rw [same]
    exact law.moved rfl rfl rfl (.inl state)
  · rw [owned]
    exact owned_ownedBy _ w latch (.inl state)

theorem not_freeNow {c : CrossingRec} {now : Time} (held : c.state.unlocked = false) (amber : c.state ≠ .amber)
    (raising : c.state ≠ .raising) : ¬ c.FreeNow now := by simp [CrossingRec.FreeNow, held, amber, raising]

theorem not_openNow {c : CrossingRec} {now : Time} (opened : c.state ≠ .opened) (amber : c.state ≠ .amber) :
    ¬ c.OpenNow now := by simp [CrossingRec.OpenNow, opened, amber]

theorem unlocked_of_isClosed {c : CrossingState} (h : c.isClosed = true) : c.unlocked = true := by cases c <;> trivial

theorem owned_controls : Controls fun t => t.skeleton.Owned o free CrossingRec.FreeNow where
  reads law same := same ▸ law
  opened law _ := (owned_enterOpen law).mono CrossingRec.OpenNow.free
  stepEnded {s} outcome law _ := by
    have ended := owned_enterOpen (may := CrossingRec.FreeNow) (s := { s with authority :=
      { s.authority with step := .none, phase := .none, stepEnd := none, outcome := outcome } }) law
    exact ended.mono CrossingRec.OpenNow.free
  raised {s} law _ _ := by
    rw [enter_inState]
    exact law.moved rfl rfl rfl (.inr ⟨.inr rfl, rfl⟩)
  completed {s c} law _ closed := by
    refine owned_elect_of_free (may := CrossingRec.FreeNow) ?_ (by rw [enter_state]; exact unlocked_of_isClosed closed)
    rw [enter_inState]
    exact law.moved rfl rfl rfl (.inl (unlocked_of_isClosed closed))
  moved {s c} law _ closed := by
    rw [enter_inState]
    exact law.moved rfl rfl rfl (.inl (unlocked_of_isClosed closed))
  lowered {s} law state _ := by
    have held : ¬ s.crossing.bare.FreeNow s.clock := by
      refine not_freeNow ?_ ?_ ?_ <;> simp [CrossingRec.bare, state, CrossingState.unlocked]
    have entered : Skeleton.Owned o free CrossingRec.FreeNow { s.skeleton.inState .lowerExit with crossing :=
      { (s.skeleton.inState .lowerExit).crossing with exitTimer := none } } := law.still rfl rfl rfl held
    rw [← enter_inState] at entered
    exact entered
  returned {s} law state := by
    have held : ¬ s.crossing.bare.FreeNow s.clock := by
      refine not_freeNow ?_ ?_ ?_ <;> simp [CrossingRec.bare, state, CrossingState.unlocked]
    rw [enterRecord_inState]
    exact law.still rfl rfl rfl held
  exitRun {s} law _ := law
  cycleRaises {s i} law _ := law

theorem owned_causesChanged (law : s.skeleton.Owned o free CrossingRec.OpenNow) :
    s.causesChanged.skeleton.Owned o free CrossingRec.OpenNow := by
  rcases causesChanged_cases s with ⟨eq, -⟩ | ⟨-, -, eq⟩ | ⟨-, -, eq⟩ | ⟨-, state, eq⟩ | ⟨closed, eq⟩
  · rw [eq]
    exact law
  · obtain ⟨timer, amber⟩ := enterAmber_inState s
    rw [eq, amber]
    exact law.moved rfl rfl rfl (.inr ⟨rfl, rfl⟩)
  · obtain ⟨timer, amber⟩ := enterAmber_inState s
    rw [eq, abandonStep_withoutStep, amber]
    exact law.moved rfl rfl rfl (.inr ⟨rfl, rfl⟩)
  · obtain ⟨begun, timer, lowered⟩ := relower_inState s
    have held : ¬ s.crossing.bare.OpenNow s.clock := by
      refine not_openNow ?_ ?_ <;> simp [CrossingRec.bare, state]
    rw [eq, lowered]
    exact law.still rfl rfl rfl held
  · have held : ¬ s.crossing.bare.OpenNow s.clock := by
      refine not_openNow ?_ ?_ <;> rcases (isClosed_iff _).1 closed with state | state <;> simp [CrossingRec.bare, state]
    rw [eq]
    unfold State.openingCheck State.enterRaising
    dsimp only
    have raised : (s.enter .raising).skeleton.Owned o free CrossingRec.OpenNow := by
      rw [enter_inState]
      exact law.still rfl rfl rfl held
    split
    · split
      · exact owned_enterOpen raised
      · exact raised
    · exact law

theorem owned_tell (law : s.skeleton.Owned o free CrossingRec.OpenNow) : s.tell.skeleton.Owned o free CrossingRec.OpenNow := by
  unfold State.tell
  dsimp only
  split
  · exact law
  · exact owned_causesChanged law

/-- Under a free lock the owner may change, and what then follows leaves OPEN for AMBER and a closure for RAISING. -/
theorem owned_causesChanged_of_free (law : s.skeleton.Owned o free CrossingRec.FreeNow)
    (opened : s.crossing.state = .opened → s.skeleton.Owned o free CrossingRec.OpenNow)
    (unlocked : s.crossing.state.unlocked = true) : s.causesChanged.skeleton.Owned o free CrossingRec.FreeNow := by
  by_cases state : s.crossing.state = .opened
  · exact (owned_causesChanged (opened state)).mono CrossingRec.OpenNow.free
  · rcases causesChanged_cases s with ⟨eq, -⟩ | ⟨-, wrong, -⟩ | ⟨-, wrong, -⟩ | ⟨-, wrong, -⟩ | ⟨-, eq⟩
    · rw [eq]
      exact law
    · exact absurd wrong state
    · rw [wrong] at unlocked
      cases unlocked
    · rw [wrong] at unlocked
      cases unlocked
    · rw [eq]
      exact owned_controls.openingCheck law

theorem owned_auction (law : s.skeleton.Owned o free CrossingRec.OpenNow) :
    s.auction.skeleton.Owned o free CrossingRec.FreeNow := by
  unfold State.auction
  dsimp only
  rcases elect_owned s with same | ⟨held, w, latch, owned⟩
  · rw [if_pos (authority_of_skeleton same).1, same]
    exact law.mono CrossingRec.OpenNow.free
  · have state : s.elect.crossing.state = s.crossing.state := congrArg (fun k => k.crossing.state) owned
    have unlocked : s.crossing.state.unlocked = true := by simpa [State.locked] using held
    have elected := owned_elect_of_free law unlocked
    split
    · exact elected
    · refine owned_causesChanged_of_free elected (fun opened => ?_) (by rw [state]; exact unlocked)
      rw [owned]
      exact owned_ownedBy _ w latch (.inl (state.symm.trans opened))

theorem owned_swapCrossing (law : s.skeleton.Owned o free CrossingRec.OpenNow)
    (state : s.crossing.state = .noPlan ∨ s.crossing.state = .opened) :
    s.swapCrossing.skeleton.Owned o free CrossingRec.OpenNow := by
  have onward {u : State} (law : u.elect.skeleton.Owned o free CrossingRec.OpenNow) :
      u.elect.forceDoubtful.tell.causesChanged.skeleton.Owned o free CrossingRec.OpenNow := by
    refine owned_causesChanged (owned_tell ?_)
    rw [State.forceDoubtful, eachDemand_skeleton]
    exact law
  unfold State.swapCrossing
  dsimp only
  split
  next none =>
    obtain ⟨begun, timer, lowered⟩ := enterLowerEntry_inState s
    have held : ¬ s.crossing.bare.OpenNow s.clock := by
      refine not_openNow ?_ ?_ <;> simp [CrossingRec.bare, none]
    have entered : s.enterLowerEntry.skeleton.Owned o free CrossingRec.OpenNow := by
      rw [lowered]
      exact law.still rfl rfl rfl held
    have inEntry : s.enterLowerEntry.crossing.state = .lowerEntry := congrArg (fun k => k.crossing.state) lowered
    refine onward ?_
    rcases elect_owned _ with same | ⟨unlocked, -⟩
    · rw [same]
      exact entered
    · simp [State.locked, inEntry, CrossingState.unlocked] at unlocked
  next named =>
    have opened := state.resolve_left named
    refine onward ?_
    rcases elect_owned _ with same | ⟨-, w, latch, owned⟩
    · rw [same]
      exact law
    · rw [owned]
      exact owned_ownedBy _ w latch (.inl opened)

theorem state_of_activationCondition (condition : s.activationCondition = true) :
    s.crossing.state = .noPlan ∨ s.crossing.state = .opened := by
  simp only [State.activationCondition, Bool.or_eq_true, Bool.and_eq_true, decide_eq_true_eq] at condition
  exact condition.imp_right fun h => h.1.1

theorem owned_tracks : Tracks fun t => t.skeleton.Owned o free CrossingRec.OpenNow where
  reads law same := same ▸ law
  told {s u} law retracked := by
    refine owned_tell ?_
    rw [retracked.skeleton]
    exact law
  swapped {s} law condition := by
    have kept := swapEquipment_skeleton s.recordsSwapped s.store.plan (planOf s.store.standby.image)
    refine owned_swapCrossing ?_ ?_
    · rw [kept]
      exact law
    · rw [state_of_skeleton kept]
      have states := state_of_activationCondition condition
      exact states

/-- The owner along one command taken in `s`. -/
theorem owned_regime (s : State) : Regime s
    (fun t => t.skeleton.Owned s.authority.owner (s.locked = false) CrossingRec.OpenNow)
    (fun t => t.skeleton.Owned s.authority.owner (s.locked = false) CrossingRec.FreeNow) where
  tracks := owned_tracks
  controls := owned_controls
  begins := .inl rfl
  ends law := law.mono CrossingRec.OpenNow.free
  swapping {t} law condition := by
    rcases state_of_activationCondition condition with state | state
    · have held : ¬ t.crossing.bare.FreeNow t.clock := by
        refine not_freeNow ?_ ?_ ?_ <;> simp [CrossingRec.bare, state, CrossingState.unlocked]
      exact law.still rfl rfl rfl held
    · exact law.moved rfl rfl rfl (.inl state)
  auction := owned_auction
  pressed {t u} law pressed := by
    obtain ⟨level, latch, same⟩ := pressed
    refine (owned_causesChanged ?_).mono CrossingRec.OpenNow.free
    rw [same]
    exact law
  panelRead _ law _ := law.mono CrossingRec.OpenNow.free
  begun {u} tag st same _ _ := by
    refine .inl ?_
    have owner : (u.enter .testActive).authority.owner = s.authority.owner :=
      (congrArg (fun k => k.authority.owner) (enter_inState u .testActive)).trans (authority_of_skeleton same).1
    cases st with
    | none => exact owner
    | lampTest => exact owner
    | machineCycle i => exact (authority_of_skeleton (sendMachine_skeleton _ i .lower)).1.trans owner
  timer := by
    refine .inl ?_
    unfold opStateTimer
    split
    · split
      · exact congrArg (fun k => k.authority.owner) (enter_inState s .redLead)
      · obtain ⟨begun, timer, lowered⟩ := enterLowerEntry_inState s
        exact congrArg (fun k => k.authority.owner) lowered
      · rfl
    · rfl

end OwnerLaw

theorem tick_owner (s : State) : s.tick.authority.owner = s.authority.owner := by
  obtain ⟨l, d, tick, -⟩ := tick_eq s
  rw [tick]
  rfl

/-- A command other than START changes the owner only now, and where the lock is free or the crossing has passed it
(R132, R133). -/
theorem owner_of_step {s t : State} (h : step s = .next t) (other : s.pending.head? ≠ some .start)
    (changed : t.authority.owner ≠ s.authority.owner) : t.authority.changed = t.clock ∧
      (s.locked = false ∨ t.locked = false ∨
        ((t.crossing.state = .amber ∨ t.crossing.state = .raising) ∧ t.crossing.entered = t.clock)) := by
  rcases step_cases h with ⟨-, ticked⟩ | ⟨rest, starts, -⟩ | ⟨cmd, rest, -, other, arm⟩
  · exact absurd (ticked ▸ tick_owner s) changed
  · exact absurd (by rw [starts]; rfl) other
  · obtain ⟨u, reached, keeps⟩ := (owned_regime { s with pending := rest }).exec_keeps other
    obtain rfl : u = t := Host.Outcome.next.inj (reached.symm.trans arm)
    obtain ⟨now, was | free | passed⟩ := keeps.resolve_left changed
    · exact ⟨now, .inl was⟩
    · refine ⟨now, .inr (.inl ?_)⟩
      rw [State.locked, show u.crossing.state.unlocked = true from free]
      rfl
    · exact ⟨now, .inr (.inr passed)⟩

/-- Settles O17: the sequence law is an invariant of every step, and the owner law is followed along one command. -/
theorem stepKeepsTheSequenceLaw : Obligations.StepKeepsTheSequenceLaw :=
  fun _ _ h => ⟨fun law => step_keeps_sequenceLaw law h, owner_of_step h⟩

end Sys2Proof.Machine

namespace Sys2Proof.Machine

open Sys2Proof

/-! ### The closure invariant (R110, R113) -/

/-- What the records and the views are checked against: the plan, the track and the views themselves (R110). -/
structure TrackSight where
  plan       : Option Plan
  dps        : Nat
  sects      : List SectRec
  demands    : List DemandRec
  demandView : List DemandView
  islandView : List IslandView

/-- The sight of a skeleton. -/
def Skeleton.sight (k : Skeleton) : TrackSight :=
  ⟨k.plan, k.dps, k.sects, k.demands, k.crossing.demandView, k.crossing.islandView⟩

/-- The closure causes, which the skeleton determines (R113). -/
def Skeleton.causes (k : Skeleton) : List ClosureCause :=
  (if k.crossing.demandView.any (fun v => v.state.closes) then [.demand] else []) ++
  (if k.crossing.islandView.any (fun v => !v.clear) then [.island] else []) ++
  (if k.authority.owner = .remote ∧ k.crossing.remoteClose then [.remoteClose] else []) ++
  (if k.authority.owner = .localPanel ∧ k.panelClose then [.panelClose] else [])

theorem causes_eq_skeleton (s : State) : s.causes = s.skeleton.causes := rfl

/-- While a closure cause stands the crossing is not OPEN, RAISING or in a test, on the skeleton. -/
def Skeleton.Guarded (k : Skeleton) : Prop :=
  k.causes ≠ [] → k.crossing.state ≠ .opened ∧ k.crossing.state ≠ .raising ∧ k.crossing.state ≠ .testActive

theorem guarded_of_clear {k : Skeleton} (clear : k.causes = []) : k.Guarded := fun some => absurd clear some

theorem guarded_of_state {k : Skeleton} (opened : k.crossing.state ≠ .opened) (raising : k.crossing.state ≠ .raising)
    (test : k.crossing.state ≠ .testActive) : k.Guarded := fun _ => ⟨opened, raising, test⟩

theorem guarded_of_isClosed {k : Skeleton} (closed : k.crossing.state.isClosed = true) : k.Guarded := by
  refine guarded_of_state ?_ ?_ ?_ <;> rcases (isClosed_iff _).1 closed with state | state <;> simp [state]

/-- The records match the plan, and the views are the demands and the islands as they stand. -/
def Seen (s : State) : Prop := RecordsMatchPlan s ∧ ViewsLaw s

theorem closureInvariant_iff (s : State) : ClosureInvariant s ↔ Seen s ∧ s.skeleton.Guarded :=
  ⟨fun ⟨records, views, causes⟩ => ⟨⟨records, views⟩, causes⟩, fun ⟨⟨records, views⟩, causes⟩ => ⟨records, views, causes⟩⟩

section TrackSight

variable {s t : State}

/-- Where plan and track stay, so do the records and what the views are to be. -/
theorem track_of_sight (plan : t.store.plan = s.store.plan) (dps : t.dps.length = s.dps.length) (sects : t.sects = s.sects)
    (demands : t.demands = s.demands) :
    (RecordsMatchPlan s → RecordsMatchPlan t) ∧ t.demandsNow = s.demandsNow ∧ t.islandsNow = s.islandsNow := by
  obtain ⟨dp, sect, approach⟩ := tables_of_plan plan
  refine ⟨fun ⟨hd, hs, ha⟩ => ⟨?_, ?_, ?_⟩, ?_, ?_⟩
  · rw [dps, dp, hd]
  · rw [sects, sect, hs]
  · rw [demands, approach, ha]
  · simp only [State.demandsNow, plan, demands]
  · simp only [State.islandsNow, plan, sects]

theorem Seen.of_sight (seen : Seen s) (same : t.skeleton.sight = s.skeleton.sight) : Seen t := by
  obtain ⟨records, demandView, islandView⟩ := seen
  obtain ⟨kept, demands, islands⟩ := track_of_sight (congrArg TrackSight.plan same : t.store.plan = s.store.plan)
    (congrArg TrackSight.dps same) (congrArg TrackSight.sects same) (congrArg TrackSight.demands same)
  refine ⟨kept records, ?_, ?_⟩
  · rw [demands, ← demandView]
    exact congrArg TrackSight.demandView same
  · rw [islands, ← islandView]
    exact congrArg TrackSight.islandView same

/-- The views read afresh are right. -/
theorem seen_viewed (records : RecordsMatchPlan s) : Seen s.viewed := ⟨records, rfl, rfl⟩

/-- A transition that keeps the sight keeps what is seen; the causes are then to be compared with the state. -/
theorem ClosureInvariant.moved (law : ClosureInvariant s) (same : t.skeleton.sight = s.skeleton.sight)
    (guarded : t.skeleton.Guarded) : ClosureInvariant t :=
  (closureInvariant_iff t).2 ⟨((closureInvariant_iff s).1 law).1.of_sight same, guarded⟩

theorem ClosureInvariant.guarded (law : ClosureInvariant s) : s.skeleton.Guarded := ((closureInvariant_iff s).1 law).2

theorem ClosureInvariant.seen (law : ClosureInvariant s) : Seen s := ((closureInvariant_iff s).1 law).1

theorem ClosureInvariant.reads (law : ClosureInvariant s) (same : t.skeleton = s.skeleton) : ClosureInvariant t := by
  refine law.moved (by rw [same]) ?_
  rw [same]
  exact law.guarded

/-- The causes on an equal sight, under the same owner, panel and latch. -/
theorem causes_of_sight {k m : Skeleton} (sight : m.sight = k.sight) (owner : m.authority.owner = k.authority.owner)
    (panel : m.panelClose = k.panelClose) (latch : m.crossing.remoteClose = k.crossing.remoteClose) :
    m.causes = k.causes := by
  have demandView : m.crossing.demandView = k.crossing.demandView := congrArg TrackSight.demandView sight
  have islandView : m.crossing.islandView = k.crossing.islandView := congrArg TrackSight.islandView sight
  simp only [Skeleton.causes, demandView, islandView, owner, panel, latch]

/-- OPEN is entered with no cause standing, and with one the crossing goes on to AMBER (R123, R114). -/
theorem closure_enterOpen (seen : Seen s) : ClosureInvariant s.enterOpen := by
  obtain ⟨u, elected, ends⟩ := enterOpen_cases s
  have sight : u.skeleton.sight = s.skeleton.sight := by
    rcases elected with same | ⟨w, latch, owned⟩
    · rw [same]
      rfl
    · rw [owned]
      rfl
  rcases ends with ⟨clear, eq⟩ | ⟨-, eq⟩
  · rw [eq]
    exact (closureInvariant_iff u).2 ⟨seen.of_sight sight, guarded_of_clear clear⟩
  · obtain ⟨timer, amber⟩ := enterAmber_inState u
    rw [eq, closureInvariant_iff, amber]
    refine ⟨(seen.of_sight sight).of_sight (by rw [amber]; rfl), guarded_of_state ?_ ?_ ?_⟩ <;> nofun

theorem causes_of_mayOpen (may : s.mayOpen = true) : s.causes = [] := by
  simp only [State.mayOpen, Bool.and_eq_true] at may
  exact List.isEmpty_iff.1 may.1.1

theorem elect_sight : s.elect.skeleton.sight = s.skeleton.sight := by
  rcases elect_owned s with same | ⟨-, w, latch, owned⟩
  · rw [same]
  · rw [owned]
    rfl

theorem elect_state (s : State) : s.elect.crossing.state = s.crossing.state := by
  rcases elect_owned s with same | ⟨-, w, latch, owned⟩
  · exact state_of_skeleton same
  · exact congrArg (fun k => k.crossing.state) owned

theorem closure_controls : Controls ClosureInvariant where
  reads := ClosureInvariant.reads
  opened law _ := closure_enterOpen law.seen
  stepEnded {s} outcome law _ := closure_enterOpen (s := { s with authority :=
    { s.authority with step := .none, phase := .none, stepEnd := none, outcome := outcome } }) law.seen
  raised {s} law _ may := by
    refine law.moved (by rw [enter_inState]; rfl) (guarded_of_clear ?_)
    rw [enter_inState]
    exact (causes_of_sight rfl rfl rfl rfl).trans (causes_of_mayOpen may)
  completed {s c} law _ closed := by
    refine law.moved (elect_sight.trans (by rw [enter_inState]; rfl)) (guarded_of_isClosed ?_)
    show (s.enter c).elect.crossing.state.isClosed = true
    rw [elect_state, enter_state, closed]
  moved {s c} law _ closed := by
    refine law.moved (by rw [enter_inState]; rfl) (guarded_of_isClosed ?_)
    show (s.enter c).crossing.state.isClosed = true
    rw [enter_state, closed]
  lowered {s} law _ _ := by
    have sight := congrArg Skeleton.sight (enter_inState s .lowerExit)
    have state := enter_state s .lowerExit
    refine law.moved (t := { s.enter .lowerExit with crossing := { (s.enter .lowerExit).crossing with exitTimer := none } })
      sight (guarded_of_state ?_ ?_ ?_) <;>
    · show (s.enter .lowerExit).crossing.state ≠ _
      rw [state]
      nofun
  returned {s} law _ := by
    refine law.moved (by rw [enterRecord_inState]; rfl) ?_
    rw [enterRecord_inState]
    refine guarded_of_state ?_ ?_ ?_ <;> nofun
  exitRun {s} law _ := law
  cycleRaises {s i} law _ := law

/-- Told of a change of the causes, the crossing leaves OPEN, RAISING and the test, whatever the cause is. -/
theorem Seen.causesChanged (seen : Seen s) : ClosureInvariant s.causesChanged := by
  rcases causesChanged_cases s with ⟨eq, clear | ⟨opened, test, raising⟩⟩ | ⟨-, -, eq⟩ | ⟨-, -, eq⟩ | ⟨-, -, eq⟩ | ⟨closed, eq⟩
  · rw [eq]
    exact (closureInvariant_iff s).2 ⟨seen, guarded_of_clear clear⟩
  · rw [eq]
    exact (closureInvariant_iff s).2 ⟨seen, guarded_of_state opened raising test⟩
  · obtain ⟨timer, amber⟩ := enterAmber_inState s
    rw [eq, closureInvariant_iff, amber]
    refine ⟨seen.of_sight (by rw [amber]; rfl), guarded_of_state ?_ ?_ ?_⟩ <;> nofun
  · obtain ⟨timer, amber⟩ := enterAmber_inState s
    have abandoned := (abandonStep_withoutStep s.enterAmber).trans (congrArg Skeleton.withoutStep amber)
    rw [eq, closureInvariant_iff, abandoned]
    refine ⟨seen.of_sight (by rw [abandoned]; rfl), guarded_of_state ?_ ?_ ?_⟩ <;> nofun
  · obtain ⟨begun, timer, lowered⟩ := relower_inState s
    rw [eq, closureInvariant_iff, lowered]
    refine ⟨seen.of_sight (by rw [lowered]; rfl), guarded_of_state ?_ ?_ ?_⟩ <;> nofun
  · rw [eq]
    exact closure_controls.openingCheck ((closureInvariant_iff s).2 ⟨seen, guarded_of_isClosed closed⟩)

theorem tell_of_seen (same : s.demandsNow = s.crossing.demandView ∧ s.islandsNow = s.crossing.islandView) : s.tell = s :=
  if_pos same

theorem tell_of_unseen (changed : ¬ (s.demandsNow = s.crossing.demandView ∧ s.islandsNow = s.crossing.islandView)) :
    s.tell = s.viewed.causesChanged := if_neg changed

/-- Told of the demands and the islands, the Sequence Controller sees them (R110). -/
theorem seen_tell (records : RecordsMatchPlan s) : Seen s.tell := by
  by_cases same : s.demandsNow = s.crossing.demandView ∧ s.islandsNow = s.crossing.islandView
  · rw [tell_of_seen same]
    exact ⟨records, same.1.symm, same.2.symm⟩
  · rw [tell_of_unseen same]
    exact (seen_viewed records).causesChanged.seen

theorem closure_tell (records : RecordsMatchPlan s) (guarded : s.skeleton.Guarded) : ClosureInvariant s.tell := by
  by_cases same : s.demandsNow = s.crossing.demandView ∧ s.islandsNow = s.crossing.islandView
  · rw [tell_of_seen same]
    exact ⟨records, ⟨same.1.symm, same.2.symm⟩, guarded⟩
  · rw [tell_of_unseen same]
    exact (seen_viewed records).causesChanged

/-- An auction that leaves the owner leaves the state. -/
theorem elect_of_owner (same : s.elect.authority.owner = s.authority.owner) : s.elect = s := by
  unfold State.elect at same ⊢
  split
  · rfl
  · split
    · rfl
    next locked winner =>
      rw [if_neg locked, if_neg winner] at same
      exact absurd same winner

theorem ClosureInvariant.auction (law : ClosureInvariant s) : ClosureInvariant s.auction := by
  unfold State.auction
  dsimp only
  split
  next same =>
    rw [elect_of_owner same]
    exact law
  · exact (law.seen.of_sight elect_sight).causesChanged

/-- There is one record for each entry of the new plan (R22). -/
theorem recordsSwapped_match (s : State) : RecordsMatchPlan s.recordsSwapped := by
  refine ⟨?_, ?_, ?_⟩ <;> exact List.length_map _

theorem recordsMatch_of_skeleton (records : RecordsMatchPlan s) (same : t.skeleton = s.skeleton) : RecordsMatchPlan t :=
  (track_of_sight (congrArg Skeleton.plan same : t.store.plan = s.store.plan) (congrArg Skeleton.dps same)
    (congrArg Skeleton.sects same) (congrArg Skeleton.demands same)).1 records

/-- After a swap the views are read afresh, and what then stands is told (R23). -/
theorem closure_swapCrossing (records : RecordsMatchPlan s) : ClosureInvariant s.swapCrossing := by
  have onward {u : State} (records : RecordsMatchPlan u) :
      ClosureInvariant (u.viewed.elect.forceDoubtful.tell.causesChanged) := by
    have elected : RecordsMatchPlan u.viewed.elect := ((seen_viewed records).of_sight elect_sight).1
    exact (seen_tell ((eachDemand_retracked _ _).records elected)).causesChanged
  unfold State.swapCrossing
  dsimp only
  split
  · obtain ⟨begun, timer, lowered⟩ := enterLowerEntry_inState s
    have entered : RecordsMatchPlan s.enterLowerEntry := (track_of_sight
      (congrArg Skeleton.plan lowered : s.enterLowerEntry.store.plan = s.store.plan) (congrArg Skeleton.dps lowered)
      (congrArg Skeleton.sects lowered) (congrArg Skeleton.demands lowered)).1 records
    exact onward (recordsMatch_of_skeleton entered (clear_skeleton _ _ _))
  · exact onward records

theorem closure_tracks : Tracks ClosureInvariant where
  reads := ClosureInvariant.reads
  told {s u} law retracked := by
    refine closure_tell (retracked.records law.seen.1) ?_
    rw [retracked.skeleton]
    exact law.guarded
  swapped {s} _ _ := closure_swapCrossing (recordsMatch_of_skeleton (recordsSwapped_match s) (swapEquipment_skeleton _ _ _))

end TrackSight

/-! ### The invariant along a step -/

section Closure

variable {s u : State}

/-- In OPEN no cause stands, so a test step begins with none (R139, R140). -/
theorem ClosureInvariant.beginStep (law : ClosureInvariant u) (state : u.crossing.state = .opened) (tag : Byte) {st : Step}
    (named : st ≠ .none) : ClosureInvariant (u.beginStep tag st) := by
  have clear : u.skeleton.causes = [] := by
    by_contra some
    exact (law.guarded some).1 state
  have inTest {v : State} {a : AuthorityRec} (owner : a.owner = (u.enter .testActive).authority.owner)
      (same : v.skeleton = State.skeleton { u.enter .testActive with authority := a }) : ClosureInvariant v := by
    have entered : v.skeleton = { u.skeleton.inState .testActive with authority := a.bare } := by
      rw [← enter_inState]
      exact same
    have kept : (u.enter .testActive).authority.owner = u.authority.owner :=
      congrArg (fun k => k.authority.owner) (enter_inState u .testActive)
    refine law.moved (by rw [entered]; rfl) (guarded_of_clear (Eq.trans ?_ clear))
    rw [entered]
    exact causes_of_sight rfl (owner.trans kept) rfl rfl
  cases st with
  | none => exact absurd rfl named
  | lampTest =>
    refine inTest (a := { (u.enter .testActive).authority with
      step := .lampTest, phase := .flashing, outcome := .none, stepTag := tag, stepEnd := _ }) rfl rfl
  | machineCycle i =>
    exact inTest (a := { (u.enter .testActive).authority with
      step := .machineCycle i, phase := .lowering, stepEnd := none, outcome := .none, stepTag := tag }) rfl
      (sendMachine_skeleton _ i .lower)

theorem ClosureInvariant.opStateTimer (law : ClosureInvariant s) : ClosureInvariant (opStateTimer s) := by
  unfold Machine.opStateTimer
  split
  · split
    · have sight := congrArg Skeleton.sight (enter_inState s .redLead)
      have state := enter_state s .redLead
      refine law.moved (t := { s.enter .redLead with crossing := { (s.enter .redLead).crossing with stateTimer := _ } })
        sight (guarded_of_state ?_ ?_ ?_) <;>
      · show (s.enter .redLead).crossing.state ≠ _
        rw [state]
        nofun
    · obtain ⟨begun, timer, lowered⟩ := enterLowerEntry_inState s
      refine law.moved (by rw [lowered]; rfl) ?_
      rw [lowered]
      refine guarded_of_state ?_ ?_ ?_ <;> nofun
    · exact law
  · exact law

theorem closure_regime (law : ClosureInvariant s) : Regime s ClosureInvariant ClosureInvariant where
  tracks := closure_tracks
  controls := closure_controls
  begins := law
  ends := id
  swapping law _ := law
  auction := ClosureInvariant.auction
  pressed := fun law ⟨_, _, same⟩ => (law.seen.of_sight (by rw [same]; rfl)).causesChanged
  panelRead {u} level law other := by
    refine law.moved (t := { u with pins := { u.pins with panelClose := level } }) rfl fun some => law.guarded fun clear => some ?_
    have read : (State.skeleton { u with pins := { u.pins with panelClose := level } }).causes = u.skeleton.causes := by
      simp only [Skeleton.causes, State.skeleton, AuthorityRec.bare, other, false_and, if_false]
      rfl
    exact read.trans clear
  begun tag _ same state named := (law.reads same).beginStep state tag named
  timer := law.opStateTimer

/-- START reads the views with its records set, in AMBER or NO_PLAN (R4, R110). -/
theorem closure_started (s : State) : ClosureInvariant s.cleared.viewed := by
  have records : RecordsMatchPlan s.cleared := by
    refine ⟨?_, ?_, ?_⟩
    · exact (List.length_map _).trans (congrArg List.length (by unfold State.dpTable; rfl))
    · exact (List.length_map _).trans rfl
    · exact (List.length_map _).trans rfl
  refine (closureInvariant_iff _).2 ⟨seen_viewed records, ?_⟩
  have states : (CrossingRec.start s.cleared.store.plan).state = .amber ∨
      (CrossingRec.start s.cleared.store.plan).state = .noPlan := by
    cases s.cleared.store.plan
    · exact .inr rfl
    · exact .inl rfl
  refine guarded_of_state ?_ ?_ ?_ <;>
  · show (CrossingRec.start s.cleared.store.plan).state ≠ _
    rcases states with state | state <;> rw [state] <;> nofun

/-- Settles O15: the invariant is kept by every transition of the crossing, and the causes are read again whenever they
change. -/
theorem stepKeepsTheClosureInvariant : Obligations.StepKeepsTheClosureInvariant := by
  intro s t law h
  rcases step_cases h with ⟨-, ticked⟩ | ⟨rest, -, started⟩ | ⟨cmd, rest, -, other, arm⟩
  · have skeleton := tick_skeleton s
    rw [ticked]
    refine law.moved (by rw [skeleton]; rfl) ?_
    rw [skeleton]
    exact law.guarded
  · rw [started]
    exact closure_tracks.settle (closure_tracks.startPart (closure_started _))
  · obtain ⟨u, reached, keeps⟩ := (closure_regime (s := { s with pending := rest }) law).exec_keeps other
    obtain rfl : u = t := Host.Outcome.next.inj (reached.symm.trans arm)
    exact keeps

end Closure

end Sys2Proof.Machine

namespace Sys2Proof.Machine

open Sys2Proof

/-! ### What the closure invariant says of the road (R113) -/

section Road

variable {s : State}

theorem causes_of_demand (view : s.crossing.demandView.any (fun v => v.state.closes) = true) : s.causes ≠ [] := by
  simp [State.causes, view]

theorem causes_of_island (view : s.crossing.islandView.any (fun v => !v.clear) = true) : s.causes ≠ [] := by
  simp [State.causes, view]

/-- Every demand stands in the demand view (R109, R110). -/
theorem demandsNow_of_mem {d : DemandRec} (records : RecordsMatchPlan s) (mem : d ∈ s.demands) :
    ∃ v ∈ s.demandsNow, v.state = d.state := by
  obtain ⟨-, -, demands⟩ := records
  obtain ⟨i, get⟩ := List.mem_iff_getElem?.1 mem
  obtain ⟨within, -⟩ := List.getElem?_eq_some_iff.1 get
  cases plan : s.store.plan with
  | none =>
    have none : s.approachTable.length = 0 := by simp [State.approachTable, State.par, plan]
    omega
  | some p =>
    have entries : s.approachTable.length = p.approaches.length := by simp [State.approachTable, State.par, plan]
    have entry : p.approaches[i]? = some p.approaches[i] := List.getElem?_eq_getElem (by omega)
    refine ⟨⟨d.state, d.forced, figureOf p p.approaches[i] d⟩, ?_, rfl⟩
    rw [State.demandsNow, plan]
    exact mem_zipWithList.2 ⟨i, p.approaches[i], d, entry, get, rfl⟩

/-- The island of a track stands in the island view (R110). -/
theorem islandsNow_of_island {p : Plan} {i : Nat} {e : SectionEntry} {r : SectRec} (plan : s.store.plan = some p)
    (entry : p.sects[i]? = some e) (island : e.kind = .island) (first : islandOf p e.track = some i)
    (record : s.sects[i]? = some r) : ⟨e.track, decide (r.state = .clear)⟩ ∈ s.islandsNow := by
  have state : islandStateOf p s.sects e.track = r.state := by simp only [islandStateOf, first, stateAt, record]
  have track : e.track ∈ islandTracks p :=
    List.mem_map.2 ⟨e, List.mem_filter.2 ⟨List.mem_of_getElem? entry, by simp [island]⟩, rfl⟩
  simp only [State.islandsNow, plan]
  exact List.mem_map.2 ⟨e.track, track, by rw [state]⟩

/-- Settles O16: each of them puts a closure cause into the views, and the invariant then holds the road closed. -/
theorem closureInvariantKeepsTheRoadClosed : Obligations.ClosureInvariantKeepsTheRoadClosed := by
  intro s ⟨records, ⟨demandView, islandView⟩, guarded⟩ danger
  have caused : s.causes ≠ [] := by
    rcases danger with ⟨d, mem, closes⟩ | ⟨p, i, e, r, plan, entry, island, first, record, state⟩
    · obtain ⟨v, seen, same⟩ := demandsNow_of_mem records mem
      refine causes_of_demand (List.any_eq_true.2 ⟨v, demandView ▸ seen, ?_⟩)
      rw [same, DemandState.closes]
      simpa using closes
    · refine causes_of_island (List.any_eq_true.2 ⟨_, islandView ▸ islandsNow_of_island plan entry island first record, ?_⟩)
      simpa using state
  exact ⟨(guarded caused).1, (guarded caused).2.1⟩

end Road

end Sys2Proof.Machine

namespace Sys2Proof.Machine

open Sys2Proof

/-! ### The directions sent to the machines (R111, R112, R159) -/

/-- `t` is `s` after each position has been handed the direction `dir` has for it, if any; a FAILED machine takes none. -/
structure Sent (s t : State) (dir : Fin 4 → Option Dir) : Prop where
  frame : t = { s with crossing := { s.crossing with lastDir := t.crossing.lastDir }
                       barrier := { s.barrier with machines := t.barrier.machines } }
  machine : ∀ i : Fin 4, t.barrier.machines[i] =
    (dir i).elim s.barrier.machines[i] fun d => s.barrier.machines[i].command s.clock d
  lastDir : ∀ i : Fin 4, t.crossing.lastDir[i] =
    if s.barrier.machines[i].state = .failed then s.crossing.lastDir[i] else (dir i).or s.crossing.lastDir[i]

/-- A state after the direction, if there is one, is sent to position `i`. -/
def State.sendIf (s : State) (i : Fin 4) (d : Option Dir) : State := d.elim s (s.sendMachine i)

theorem getElem_set_fin_same {α : Type} {n : Nat} (v : Vector α n) (i : Fin n) (x : α) : (v.set i x)[i] = x :=
  Vector.getElem_set_self ..

theorem getElem_set_fin_other {α : Type} {n : Nat} (v : Vector α n) {i k : Fin n} (x : α) (other : k ≠ i) :
    (v.set i x)[k] = v[k] := Vector.getElem_set_ne (h := fun same => other (Fin.ext same.symm)) ..

section Sending

variable {s t u : State} {dir : Fin 4 → Option Dir}

theorem Sent.same (h : Sent s t dir) : t.pending = s.pending ∧ t.clock = s.clock ∧ t.store = s.store := by
  rw [h.frame]
  exact ⟨rfl, rfl, rfl⟩

/-- A position that is sent nothing stands. -/
theorem Sent.unsent (h : Sent s t dir) {i : Fin 4} (none : dir i = none) :
    t.barrier.machines[i] = s.barrier.machines[i] ∧ t.crossing.lastDir[i] = s.crossing.lastDir[i] := by
  refine ⟨(h.machine i).trans (by rw [none]; rfl), (h.lastDir i).trans ?_⟩
  rw [none, Option.none_or, ite_self]

theorem sent_nothing (s : State) : Sent s s fun _ => none := ⟨rfl, fun _ => rfl, fun _ => by simp⟩

theorem command_of_failed {r : MachineRec} (failed : r.state = .failed) (now : Time) (d : Dir) : r.command now d = r :=
  if_pos failed

theorem sendMachine_of_failed {i : Fin 4} (failed : s.barrier.machines[i].state = .failed) (d : Dir) : s.sendMachine i d = s :=
  if_pos failed

theorem sendMachine_of_working {i : Fin 4} (working : s.barrier.machines[i].state ≠ .failed) (d : Dir) : s.sendMachine i d =
    { s with barrier := { s.barrier with machines := s.barrier.machines.set i (s.barrier.machines[i].command s.clock d) }
             crossing := { s.crossing with lastDir := s.crossing.lastDir.set i (some d) } } := if_neg working

/-- One more position sent its direction. -/
theorem Sent.sendIf (h : Sent s t dir) {i : Fin 4} (none : dir i = none) (d : Option Dir) :
    Sent s (t.sendIf i d) (Function.update dir i d) := by
  obtain ⟨machine, lastDir⟩ := h.unsent none
  cases d with
  | none =>
    have same : Function.update dir i Option.none = dir := by rw [← none, Function.update_eq_self]
    rw [same]
    exact h
  | some d =>
    show Sent s (t.sendMachine i d) _
    by_cases failed : t.barrier.machines[i].state = .failed
    · rw [sendMachine_of_failed failed]
      rw [machine] at failed
      refine ⟨h.frame, fun k => ?_, fun k => ?_⟩ <;> by_cases at_i : k = i
      · subst at_i
        rw [machine, Function.update_self, Option.elim_some, command_of_failed failed]
      · rw [Function.update_of_ne at_i, h.machine]
      · subst at_i
        rw [lastDir, if_pos failed]
      · rw [Function.update_of_ne at_i, h.lastDir]
    · rw [sendMachine_of_working failed]
      rw [machine] at failed
      refine ⟨by rw [h.frame], fun k => ?_, fun k => ?_⟩ <;> by_cases at_i : k = i
      · subst at_i
        rw [Function.update_self, machine, h.same.2.1]
        exact getElem_set_fin_same _ _ _
      · rw [Function.update_of_ne at_i, ← h.machine]
        exact getElem_set_fin_other _ _ at_i
      · subst at_i
        rw [Function.update_self, if_neg failed]
        exact getElem_set_fin_same _ _ _
      · rw [Function.update_of_ne at_i, ← h.lastDir]
        exact getElem_set_fin_other _ _ at_i

/-- The positions sent one after another, where what a position is sent does not depend on the others. -/
theorem sent_foldl {f : State → Fin 4 → State} {sends : State → Fin 4 → Option Dir} (step : ∀ t i, f t i = t.sendIf i (sends t i))
    (apart : ∀ {t : State} {dir : Fin 4 → Option Dir} {i : Fin 4}, Sent s t dir → dir i = none → sends t i = sends s i) :
    Sent s ((List.finRange 4).foldl f s) (sends s) := by
  have upTo (l : List (Fin 4)) (nodup : l.Nodup) : Sent s (l.foldl f s) fun i => if i ∈ l then sends s i else none := by
    induction l using List.reverseRecOn with
    | nil => exact sent_nothing s
    | append_singleton l i ih =>
      obtain ⟨front, -, fresh⟩ := List.nodup_append.1 nodup
      have new : i ∉ l := fun mem => fresh i mem i (List.mem_singleton_self i) rfl
      have before := ih front
      have unsent : (fun k => if k ∈ l then sends s k else none) i = none := if_neg new
      have after := before.sendIf unsent (sends (l.foldl f s) i)
      rw [← step, apart before unsent] at after
      rw [List.foldl_append, List.foldl_cons, List.foldl_nil]
      refine (congrArg (Sent s _) (funext fun k => ?_)).mp after
      by_cases at_i : k = i
      · subst at_i
        simp
      · simp [at_i]
  simpa using upTo _ (List.nodup_finRange 4)

/-- The direction that entry to `c` sends to position `i` (R111, R112). -/
def State.sentTo (s : State) (c : CrossingState) (i : Fin 4) : Option Dir :=
  if s.machinePresent i then
    (c.direction (s.role i)).bind fun d => if s.crossing.lastDir[i] = some d then none else some d
  else none

theorem sendTo_eq (s : State) (c : CrossingState) (i : Fin 4) : State.sendTo c s i = s.sendIf i (s.sentTo c i) := by
  unfold State.sendTo State.sentTo
  split
  · cases c.direction (s.role i) with
    | none => rfl
    | some d =>
      dsimp only [Option.bind_some]
      split <;> rfl
  · rfl

/-- Which positions are present, and in what role, is a matter of the plan. -/
theorem positions_of_store (store : t.store = s.store) : t.machinePresent = s.machinePresent ∧ t.role = s.role := by
  unfold State.machinePresent State.role State.par
  rw [store]
  exact ⟨rfl, rfl⟩

theorem sentTo_apart {c : CrossingState} (h : Sent s t dir) {i : Fin 4} (none : dir i = none) : t.sentTo c i = s.sentTo c i := by
  obtain ⟨present, role⟩ := positions_of_store h.same.2.2
  unfold State.sentTo
  rw [present, role, (h.unsent none).2]

theorem sentTo_of_absent {i : Fin 4} (absent : s.machinePresent i = false) (c : CrossingState) : s.sentTo c i = none := by
  simp [State.sentTo, absent]

theorem sentTo_of_direction {i : Fin 4} {c : CrossingState} {d : Dir} (present : s.machinePresent i = true)
    (direction : c.direction (s.role i) = some d) :
    s.sentTo c i = if s.crossing.lastDir[i] = some d then none else some d := by
  simp [State.sentTo, present, direction]

theorem sentTo_of_silent {c : CrossingState} (silent : ∀ r, c.direction r = none) (i : Fin 4) : s.sentTo c i = none := by
  simp [State.sentTo, silent]

/-! ### Entry to a crossing state (R110, R111) -/

/-- The lights as a crossing state hands them out (R111, R146, R156). -/
def State.enteredLights (s : State) (c : CrossingState) : Lights :=
  { c.light.elim s.lights (fun l => s.lights.handed s.clock s.flashHalf s.groupPresent l) with audible := c.sounds }

/-- The crossing record as entry to `c` leaves it, the last directions aside (R110, R121). -/
def State.enteredCrossing (s : State) (c : CrossingState) : CrossingRec :=
  { s.crossing with state := c, entered := s.clock,
                    remoteOpen := s.crossing.remoteOpen && (c.isClosed || !s.crossing.state.isClosed) }

/-- The permission of the remote owner goes only with a move out of CLOSED and DEGRADED (R121). -/
theorem enteredCrossing_of_kept {c : CrossingState} (kept : c.isClosed = true ∨ s.crossing.state.isClosed = false) :
    s.enteredCrossing c = { s.crossing with state := c, entered := s.clock } := by
  have keeps : (c.isClosed || !s.crossing.state.isClosed) = true := by
    rcases kept with closed | unshut
    · rw [closed, Bool.true_or]
    · rw [unshut, Bool.not_false, Bool.or_true]
  rw [State.enteredCrossing, keeps, Bool.and_true]

theorem enterRecord_eq (s : State) (c : CrossingState) :
    s.enterRecord c = { s with crossing := s.enteredCrossing c, lights := s.enteredLights c } := by
  unfold State.enterRecord State.enteredLights
  cases c.light <;> rfl

theorem enter_sent (s : State) (c : CrossingState) : Sent (s.enterRecord c) (s.enter c) ((s.enterRecord c).sentTo c) :=
  sent_foldl (fun t i => sendTo_eq t c i) fun h none => sentTo_apart h none

/-- A state that gives no direction leaves the barrier and the last directions. -/
theorem enter_of_silent {c : CrossingState} (silent : ∀ r, c.direction r = none) (s : State) : s.enter c = s.enterRecord c := by
  have still (t : State) (i : Fin 4) : State.sendTo c t i = t := by
    rw [sendTo_eq, sentTo_of_silent silent]
    rfl
  unfold State.enter
  exact List.foldl_fixed' (still _) _

/-- What entry to `c` does: the record, the lights, and at each position the direction sent. -/
structure Entered (s t : State) (c : CrossingState) : Prop where
  frame : t = { s with crossing := t.crossing, lights := s.enteredLights c
                       barrier := { s.barrier with machines := t.barrier.machines } }
  crossing : t.crossing = { s.enteredCrossing c with lastDir := t.crossing.lastDir }
  machine : ∀ i : Fin 4, t.barrier.machines[i] =
    (s.sentTo c i).elim s.barrier.machines[i] fun d => s.barrier.machines[i].command s.clock d
  lastDir : ∀ i : Fin 4, t.crossing.lastDir[i] =
    if s.barrier.machines[i].state = .failed then s.crossing.lastDir[i] else (s.sentTo c i).or s.crossing.lastDir[i]

theorem enter_entered (s : State) (c : CrossingState) : Entered s (s.enter c) c := by
  have sent := enter_sent s c
  rw [enterRecord_eq] at sent
  obtain ⟨frame, machine, lastDir⟩ := sent
  exact ⟨by rw [frame], by rw [frame], machine, lastDir⟩

/-- A machine on entry to a state that gives its role the direction `d`. -/
theorem Entered.machine_of_direction {c : CrossingState} (h : Entered s t c) {i : Fin 4} {d : Dir}
    (direction : c.direction (s.role i) = some d) : t.barrier.machines[i] =
      if s.machinePresent i = true ∧ s.crossing.lastDir[i] ≠ some d then s.barrier.machines[i].command s.clock d
      else s.barrier.machines[i] := by
  rw [h.machine i]
  by_cases present : s.machinePresent i = true
  · rw [sentTo_of_direction present direction]
    by_cases last : s.crossing.lastDir[i] = some d
    · rw [if_pos last, if_neg fun sent => sent.2 last]
      rfl
    · rw [if_neg last, if_pos ⟨present, last⟩]
      rfl
  · rw [sentTo_of_absent (Bool.eq_false_iff.2 present), if_neg fun sent => present sent.1]
    rfl

/-! ### The lights handed out (R146 to R149) -/

theorem handed_command (now : Time) (len : Nat) (present : Fin 4 → Bool) (c : LightCommand) (l : Lights) :
    (l.handed now len present c).command = c := by
  unfold Lights.handed
  split
  next same => exact same
  · rfl

/-- A command that is already in force changes nothing. -/
theorem handed_of_same {c : LightCommand} {l : Lights} (same : l.command = c) (now : Time) (len : Nat)
    (present : Fin 4 → Bool) : l.handed now len present c = l := if_pos same

theorem handed_of_new {c : LightCommand} {l : Lights} (new : l.command ≠ c) (now : Time) (len : Nat)
    (present : Fin 4 → Bool) : l.handed now len present c = { l with command := c }.beginHalf now len .a present := if_neg new

theorem enteredLights_command {c : CrossingState} {l : LightCommand} (light : c.light = some l) (s : State) :
    (s.enteredLights c).command = l := by
  rw [State.enteredLights, light]
  exact handed_command _ _ _ _ _

theorem enteredLights_of_same {c : CrossingState} {l : LightCommand} (light : c.light = some l) (same : s.lights.command = l) :
    s.enteredLights c = { s.lights with audible := c.sounds } := by
  rw [State.enteredLights, light, Option.elim_some, handed_of_same same]

end Sending

end Sys2Proof.Machine

namespace Sys2Proof.Machine

open Sys2Proof

/-! ### The end of a step that makes no swap (R20) -/

theorem settle_of_unmet {s : State} (unmet : s.activationCondition = false) : s.settle = s.finish := by
  have idle : s.swapDue = false := by simp [State.swapDue, unmet]
  rw [State.settle, State.swapIfDue, idle]
  rfl

/-- The swap waits for OPEN or NO_PLAN (R20). -/
theorem activationCondition_of_state {s : State} (opened : s.crossing.state ≠ .opened) (noPlan : s.crossing.state ≠ .noPlan) :
    s.activationCondition = false := by simp [State.activationCondition, opened, noPlan]

theorem finish_line_frame (s : State) : LineFrame s s.finish := (finish_frame s).1.frame

/-- A command whose operation is known ends with its result settled. -/
theorem exec_of_acts {e : Instr} {s t : State} (op : State → State) (arm : exec e s = completes op s) (acts : op s = t) :
    exec e s = .next t.settle := by rw [arm, completes, acts]

section Frames

variable {s t u : State}

theorem LineFrame.blocks (h : LineFrame s t) : t.crossing = s.crossing ∧ t.authority = s.authority ∧ t.lights = s.lights ∧
    t.barrier = s.barrier ∧ t.store = s.store := by
  rw [h.2.2]
  exact ⟨rfl, rfl, rfl, rfl, rfl⟩

theorem LineFrame.control (h : LineFrame s t) : ControlFrame s t := by
  obtain ⟨line, records, rest⟩ := h
  exact ⟨line, records, by rw [rest]⟩

theorem ControlOnly.frame (h : ControlOnly s t) : ControlFrame s t := by
  obtain ⟨f, c, a, l, b, told, rfl⟩ := h
  exact ⟨.refl _, told.recordsOnly, rfl⟩

theorem ControlFrame.trans (h : ControlFrame s t) (k : ControlFrame t u) : ControlFrame s u := by
  obtain ⟨line, records, rest⟩ := h
  obtain ⟨line', records', rest'⟩ := k
  exact ⟨line.trans line', records.trans records', rest'.trans (by rw [rest])⟩

/-- What the control blocks did before the end of the step. -/
theorem ControlOnly.ended (h : ControlOnly s t) (closing : LineFrame t u) : ControlFrame s u := h.frame.trans closing.control

theorem ControlOnly.idle (h : ControlOnly s t) (idle : NoActivation s) : NoActivation t := by
  obtain ⟨f, c, a, l, b, -, rfl⟩ := h
  exact idle

end Frames

/-! ### AMBER and RED_LEAD (R115, R116) -/

/-- A change of the causes is nothing to AMBER, RED_LEAD, LOWER_ENTRY and LOWER_EXIT (R115, R116). -/
theorem causesChanged_of_closing {s : State} (state : s.crossing.state = .amber ∨ s.crossing.state = .redLead ∨
    s.crossing.state = .lowerEntry ∨ s.crossing.state = .lowerExit) : s.causesChanged = s := by
  unfold State.causesChanged
  rcases state with state | state | state | state <;> rw [state]

theorem opStateTimer_of_early {s : State} (early : due s.crossing.stateTimer s.clock = false) : opStateTimer s = s := by
  simp [opStateTimer, State.stateTimerDue, early]

theorem opStateTimer_of_amber {s : State} (state : s.crossing.state = .amber)
    (reached : due s.crossing.stateTimer s.clock = true) : opStateTimer s =
      { s with
        crossing := { s.crossing with
          state := .redLead, entered := s.clock, stateTimer := some (after s.clock (s.par 0 Plan.tRed)) }
        lights := s.enteredLights .redLead } := by
  rw [opStateTimer, State.stateTimerDue, if_pos reached, state]
  dsimp only
  rw [enter_of_silent fun _ => rfl, enterRecord_eq, enteredCrossing_of_kept (.inr (by rw [state]; rfl))]
  rfl

theorem opStateTimer_of_redLead {s : State} (state : s.crossing.state = .redLead)
    (reached : due s.crossing.stateTimer s.clock = true) : opStateTimer s = s.enterLowerEntry := by
  rw [opStateTimer, State.stateTimerDue, if_pos reached, state]

/-- FLASH handed to lights that showed something else lights red A and puts the others out (R146 to R149). -/
theorem flash_from_a {s : State} {c : CrossingState} (flashes : c.light = some .flash) (new : s.lights.command ≠ .flash) :
    (s.enteredLights c).phase = .a ∧ (s.enteredLights c).began = s.clock ∧ ∀ g : Fin 4,
      (s.enteredLights c).groups[g].amber.driven = false ∧ (s.enteredLights c).groups[g].redB.driven = false ∧
      (s.enteredLights c).groups[g].redA.driven = (s.groupPresent g && s.lights.groups[g].redA.enabled) := by
  rw [State.enteredLights, flashes, Option.elim_some, handed_of_new new]
  refine ⟨rfl, rfl, fun g => ?_⟩
  simp [Lights.beginHalf, Lights.driveAll, Lights.mapGroups, LightGroup.mapLamps, lights]

/-- Settles O40: RED_LEAD gives no direction, so the entry is the record and the lights. -/
theorem amberEndsInRedLead : Obligations.AmberEndsInRedLead := by
  intro s state
  refine ⟨causesChanged_of_closing (.inl state), fun early => ?_, fun reached => ?_⟩
  · exact exec_of_acts opStateTimer rfl (opStateTimer_of_early early)
  · refine ⟨_, rfl, ?_⟩
    rw [opStateTimer_of_amber state reached, settle_of_unmet (activationCondition_of_state (by simp) (by simp))]
    have closing := finish_line_frame { s with
        crossing := { s.crossing with
          state := .redLead, entered := s.clock, stateTimer := some (after s.clock (s.par 0 Plan.tRed)) }
        lights := s.enteredLights .redLead }
    obtain ⟨crossing, -, lights, -, -⟩ := closing.blocks
    refine ⟨?_, crossing, ?_, ?_, fun new => ?_⟩
    · rw [crossing, lights]
      exact closing
    · rw [lights]
      exact enteredLights_command rfl s
    · rw [lights]
      rfl
    · rw [lights]
      exact flash_from_a rfl new

/-! ### LOWER_ENTRY (R116) -/

/-- Entry to LOWER_ENTRY is entry with the timers of the closure set. -/
theorem enterLowerEntry_eq {s e : State} (entry : Entered s e .lowerEntry) (same : s.enter .lowerEntry = e)
    (unshut : s.crossing.state.isClosed = false) : s.enterLowerEntry =
      { e with crossing := { s.crossing with
          state := .lowerEntry, entered := s.clock, stateTimer := none, loweringStart := some s.clock,
          exitTimer := some (after s.clock (s.par 0 Plan.tExit)), exitRun := false, lastDir := e.crossing.lastDir } } := by
  have crossing := entry.crossing
  rw [enteredCrossing_of_kept (.inr unshut)] at crossing
  have clock : e.clock = s.clock := by rw [entry.frame]
  have store : e.store = s.store := by rw [entry.frame]
  have tExit : e.par 0 Plan.tExit = s.par 0 Plan.tExit := by simp only [State.par, store]
  unfold State.enterLowerEntry
  dsimp only
  rw [same, clock, tExit, crossing]

/-- The direction of a role in LOWER_ENTRY (R111). -/
theorem lowerEntry_direction (r : Role) : CrossingState.lowerEntry.direction r = some (if r = .entry then .lower else .raise) := by
  cases r <;> rfl

/-- Settles O41: the entry, with the direction of each role sent. -/
theorem redLeadEndsInLowerEntry : Obligations.RedLeadEndsInLowerEntry := by
  intro s state
  refine ⟨causesChanged_of_closing (.inr (.inl state)), fun early => ?_, fun reached => ?_⟩
  · exact exec_of_acts opStateTimer rfl (opStateTimer_of_early early)
  · refine ⟨_, rfl, ?_⟩
    obtain ⟨e, same⟩ : ∃ e, s.enter .lowerEntry = e := ⟨_, rfl⟩
    have entry : Entered s e .lowerEntry := same ▸ enter_entered s .lowerEntry
    rw [opStateTimer_of_redLead state reached, enterLowerEntry_eq entry same (by rw [state]; rfl),
      settle_of_unmet (activationCondition_of_state (by simp) (by simp))]
    have closing := finish_line_frame { e with crossing := { s.crossing with
      state := .lowerEntry, entered := s.clock, stateTimer := none, loweringStart := some s.clock,
      exitTimer := some (after s.clock (s.par 0 Plan.tExit)), exitRun := false, lastDir := e.crossing.lastDir } }
    obtain ⟨crossing, -, lights, barrier, -⟩ := closing.blocks
    have shown : e.lights = s.enteredLights .lowerEntry := by rw [entry.frame]
    have lastDir := congrArg CrossingRec.lastDir crossing
    refine ⟨?_, ?_, ?_, ?_, fun flashing => ?_, ?_, fun i d role => ⟨fun absent => ?_, fun present => ?_⟩⟩
    · rw [crossing, lights, barrier]
      rw [entry.frame] at closing ⊢
      exact closing
    · rw [lastDir]
      exact crossing
    · rw [lights, shown]
      exact enteredLights_command rfl s
    · rw [lights, shown]
      rfl
    · rw [lights, shown]
      exact enteredLights_of_same rfl flashing
    · rw [barrier, entry.frame]
    · rw [barrier, lastDir]
      refine ⟨(entry.machine i).trans ?_, (entry.lastDir i).trans ?_⟩
      · rw [sentTo_of_absent absent]
        rfl
      · rw [sentTo_of_absent absent, Option.none_or, ite_self]
    · have direction : CrossingState.lowerEntry.direction (s.role i) = some d := role ▸ lowerEntry_direction _
      rw [barrier, lastDir]
      refine ⟨(entry.machine_of_direction direction).trans ?_, (entry.lastDir i).trans ?_⟩
      · by_cases last : s.crossing.lastDir[i] = some d
        · rw [if_pos last, if_neg fun sent => sent.2 last]
        · rw [if_neg last, if_pos ⟨present, last⟩]
      · rw [sentTo_of_direction present direction]
        by_cases last : s.crossing.lastDir[i] = some d
        · rw [if_pos last, Option.none_or, last]
        · rw [if_neg last, Option.some_or]

end Sys2Proof.Machine

namespace Sys2Proof.Machine

open Sys2Proof

/-! ### LOWER_ENTRY and LOWER_EXIT (R117, R118) -/

section Lowering

variable {s : State}

theorem role_exit_iff (r : Role) : r = .exit ↔ r ≠ .entry := by cases r <;> decide

/-- The entry machines are done when each that is present is DOWN_PROVED or FAILED (R117). -/
theorem entryDone_iff (s : State) : s.entryDone = true ↔ ∀ i : Fin 4, s.machinePresent i = true → s.role i = .entry →
    s.barrier.machines[i].state = .downProved ∨ s.barrier.machines[i].state = .failed := by
  simp only [State.entryDone, List.all_eq_true, List.mem_finRange, forall_const, Bool.or_eq_true, Bool.not_eq_true',
    decide_eq_true_eq, role_exit_iff]
  refine forall_congr' fun i => ?_
  cases s.machinePresent i <;> by_cases role : s.role i = .entry <;> simp [role]

theorem everyMachine_iff (s : State) (test : MachineRec → Bool) :
    s.everyMachine test = true ↔ ∀ i : Fin 4, s.machinePresent i = true → test s.barrier.machines[i] = true := by
  simp only [State.everyMachine, List.all_eq_true, List.mem_finRange, forall_const, Bool.or_eq_true, Bool.not_eq_true']
  refine forall_congr' fun i => ?_
  cases s.machinePresent i <;> simp

theorem allDownOrFailed_iff (s : State) : s.allDownOrFailed = true ↔ ∀ i : Fin 4, s.machinePresent i = true →
    s.barrier.machines[i].state = .downProved ∨ s.barrier.machines[i].state = .failed := by
  simp only [State.allDownOrFailed, everyMachine_iff, Bool.or_eq_true, decide_eq_true_eq]

theorem machineFailed_iff (s : State) : s.machineFailed = true ↔
    ∃ i : Fin 4, s.machinePresent i = true ∧ s.barrier.machines[i].state = .failed := by
  rw [State.machineFailed, Bool.not_eq_true', Bool.eq_false_iff, Ne, everyMachine_iff]
  simp

/-! What follows in LOWER_ENTRY. -/

theorem tryLowerExit_of_undone (undone : s.entryDone = false ∨ s.crossing.exitRun = false) : s.tryLowerExit = s := by
  rcases undone with undone | waits <;> simp [State.tryLowerExit, *]

theorem tryLowerExit_of_occupied (done : s.entryDone = true) (run : s.crossing.exitRun = true)
    (occupied : s.barrier.zone.occupied = true) : s.tryLowerExit = s.beginWait := by
  simp [State.tryLowerExit, done, run, occupied]

theorem tryLowerExit_of_clear (done : s.entryDone = true) (run : s.crossing.exitRun = true)
    (clear : s.barrier.zone.occupied = false) : s.tryLowerExit = s.enterLowerExit := by
  simp [State.tryLowerExit, done, run, clear]

theorem beginWait_of_waiting (waiting : s.barrier.zone.waiting = true) : s.beginWait = s := if_pos waiting

theorem beginWait_of_new (new : s.barrier.zone.waiting = false) : s.beginWait = { s with
    barrier := { s.barrier with zone := { s.barrier.zone with
      waiting := true, holdStart := some s.clock, holdBy := some (after s.clock (s.par 0 Plan.tZone)) } } } :=
  if_neg (Bool.eq_false_iff.1 new)

/-- LOWER_EXIT as it is entered from `s`, before its completion is looked for (R117). -/
structure LoweringExit (s u : State) : Prop where
  frame : u = { s with crossing := u.crossing, lights := u.lights, barrier := u.barrier }
  state : u.crossing.state = .lowerExit
  entered : u.crossing.entered = s.clock
  exitTimer : u.crossing.exitTimer = none
  loweringStart : u.crossing.loweringStart = s.crossing.loweringStart
  audible : u.lights.audible = false
  zone : u.barrier.zone = s.barrier.zone
  machine : ∀ i : Fin 4, u.barrier.machines[i] =
    if s.machinePresent i = true ∧ s.crossing.lastDir[i] ≠ some .lower
    then s.barrier.machines[i].command s.clock .lower else s.barrier.machines[i]

theorem enterLowerExit_entered (s : State) : ∃ u, s.enterLowerExit = u.tryComplete ∧ LoweringExit s u := by
  obtain ⟨e, same⟩ : ∃ e, s.enter .lowerExit = e := ⟨_, rfl⟩
  have entry : Entered s e .lowerExit := same ▸ enter_entered s .lowerExit
  refine ⟨{ e with crossing := { e.crossing with exitTimer := none } }, by rw [State.enterLowerExit, same], ?_⟩
  have crossing := entry.crossing
  exact {
    frame := by rw [entry.frame]
    state := congrArg CrossingRec.state crossing
    entered := congrArg CrossingRec.entered crossing
    exitTimer := rfl
    loweringStart := (congrArg CrossingRec.loweringStart crossing).trans rfl
    audible := by
      show e.lights.audible = false
      rw [entry.frame]
      rfl
    zone := by
      show e.barrier.zone = _
      rw [entry.frame]
    machine := fun i => entry.machine_of_direction rfl }

theorem machinesChanged_of_lowerEntry (state : s.crossing.state = .lowerEntry) : s.machinesChanged = s.tryLowerExit := by
  rw [State.machinesChanged, state]

theorem machinesChanged_of_lowerExit (state : s.crossing.state = .lowerExit) : s.machinesChanged = s.tryComplete := by
  rw [State.machinesChanged, state]

/-- T_exit has run (R117). -/
def State.exitTimerRun (s : State) : State := { s with crossing := { s.crossing with exitRun := true } }

theorem opExitTimer_of_lowerEntry (state : s.crossing.state = .lowerEntry) (reached : due s.crossing.exitTimer s.clock = true)
    (new : s.crossing.exitRun = false) : opExitTimer s = s.exitTimerRun.tryLowerExit := by
  simp [opExitTimer, State.exitTimerDue, State.exitTimerRun, reached, new, state]

/-! The completion of the closure. -/

/-- The closure as it is complete, before the auction and the opening check (R118). -/
theorem enterClosure_entered (s : State) (state : s.crossing.state = .lowerExit) : ∃ u : State,
    s.enterClosure = u.elect.openingCheck ∧
      u = { s with crossing := u.crossing, lights := u.lights, barrier := u.barrier } ∧
      u.crossing.state = (if (∃ i : Fin 4, s.machinePresent i = true ∧ s.barrier.machines[i].state = .failed)
        then .degraded else .closed) ∧
      u.crossing.entered = s.clock ∧ u.crossing.loweringStart = s.crossing.loweringStart ∧
      u.crossing.remoteOpen = s.crossing.remoteOpen ∧ u.lights.command = .flash ∧ u.lights.audible = false ∧
      ∀ i : Fin 4, u.barrier.machines[i] =
        (if s.machinePresent i = true ∧ s.crossing.lastDir[i] ≠ some .lower
         then s.barrier.machines[i].command s.clock .lower else s.barrier.machines[i]) := by
  have closure : (if s.machineFailed then CrossingState.degraded else .closed) =
      if (∃ i : Fin 4, s.machinePresent i = true ∧ s.barrier.machines[i].state = .failed) then .degraded else .closed :=
    if_congr (machineFailed_iff s) rfl rfl
  rw [← closure]
  obtain ⟨c, completes⟩ : ∃ c, (if s.machineFailed then CrossingState.degraded else .closed) = c := ⟨_, rfl⟩
  have closed : c = .closed ∨ c = .degraded := by
    rw [← completes]
    split
    · exact .inr rfl
    · exact .inl rfl
  obtain ⟨u, same⟩ : ∃ u, s.enter c = u := ⟨_, rfl⟩
  have entry : Entered s u c := same ▸ enter_entered s c
  have crossing := entry.crossing
  rw [enteredCrossing_of_kept (.inr (by rw [state]; rfl))] at crossing
  have shown : u.lights = s.enteredLights c := by rw [entry.frame]
  rw [completes]
  refine ⟨u, ?_, by rw [entry.frame], congrArg CrossingRec.state crossing, congrArg CrossingRec.entered crossing,
    (congrArg CrossingRec.loweringStart crossing).trans rfl, (congrArg CrossingRec.remoteOpen crossing).trans rfl, ?_, ?_, fun i => ?_⟩
  · rw [State.enterClosure, completes, same]
  · rw [shown]
    rcases closed with rfl | rfl <;> exact enteredLights_command rfl s
  · rw [shown]
    rcases closed with rfl | rfl <;> rfl
  · rcases closed with rfl | rfl <;> exact entry.machine_of_direction rfl

theorem tryComplete_of_moving (moving : ∃ i : Fin 4, s.machinePresent i = true ∧ s.barrier.machines[i].state ≠ .downProved ∧
    s.barrier.machines[i].state ≠ .failed) : s.tryComplete = s := by
  refine if_neg fun all => ?_
  obtain ⟨i, present, down, failed⟩ := moving
  rcases (allDownOrFailed_iff s).1 all i present with state | state
  · exact down state
  · exact failed state

theorem tryComplete_of_done (done : ∀ i : Fin 4, s.machinePresent i = true →
    s.barrier.machines[i].state = .downProved ∨ s.barrier.machines[i].state = .failed) : s.tryComplete = s.enterClosure :=
  if_pos ((allDownOrFailed_iff s).2 done)

/-- Settles O42: the same step on to LOWER_EXIT, or to the wait on the zone, is taken at the exit timer and at a machine
change; LOWER_EXIT completes when nothing present still has to go down. -/
theorem exitTimerLeadsToLowerExit : Obligations.ExitTimerLeadsToLowerExit := by
  refine ⟨fun s state reached new => ?_, fun s state => ⟨entryDone_iff s, ?_⟩, fun s state => ⟨?_, ?_, fun done => ?_⟩⟩
  · have run : exec .exitTimerDeadline s = .next s.exitTimerRun.tryLowerExit.settle :=
      exec_of_acts opExitTimer rfl (opExitTimer_of_lowerEntry state reached new)
    refine ⟨fun undone => ?_, fun done occupied waiting => ?_, fun done clear => ?_⟩
    · rw [run, tryLowerExit_of_undone (s := s.exitTimerRun) (.inl undone)]
      rfl
    · rw [run, tryLowerExit_of_occupied (s := s.exitTimerRun) done rfl occupied, beginWait_of_new (s := s.exitTimerRun) waiting]
      rfl
    · rw [tryLowerExit_of_clear (s := s.exitTimerRun) done rfl clear] at run
      obtain ⟨u, lowers, exit⟩ := enterLowerExit_entered s.exitTimerRun
      rw [lowers] at run
      exact ⟨u, run, exit.frame, exit.state, exit.entered, exit.exitTimer, exit.loweringStart, exit.audible, exit.zone,
        exit.machine⟩
  · rw [machinesChanged_of_lowerEntry state]
    refine ⟨tryLowerExit_of_undone, fun done run => ⟨fun occupied waiting => ?_, fun occupied waiting => ?_, fun clear => ?_⟩⟩
    · rw [tryLowerExit_of_occupied done run occupied, beginWait_of_waiting waiting]
    · rw [tryLowerExit_of_occupied done run occupied, beginWait_of_new waiting]
      rfl
    · obtain ⟨u, lowers, exit⟩ := enterLowerExit_entered s
      exact ⟨u, (tryLowerExit_of_clear done run clear).trans lowers, exit.frame, exit.state, exit.entered, exit.exitTimer,
        exit.loweringStart, exit.audible, exit.zone, exit.machine⟩
  · exact machinesChanged_of_lowerExit state
  · exact tryComplete_of_moving
  · rw [tryComplete_of_done done]
    exact enterClosure_entered s state

end Lowering

end Sys2Proof.Machine

namespace Sys2Proof.Machine

open Sys2Proof

/-! ### AMBER (R114) -/

section Amber

variable {s t : State}

theorem enterAmber_eq (unshut : s.crossing.state.isClosed = false) : s.enterAmber =
    { s with
      crossing := { s.crossing with
        state := .amber, entered := s.clock, stateTimer := some (after s.clock (s.par 0 Plan.tAmber)) }
      lights := s.enteredLights .amber } := by
  unfold State.enterAmber
  dsimp only
  rw [enter_of_silent fun _ => rfl, enterRecord_eq, enteredCrossing_of_kept (.inr unshut)]
  rfl

/-! ### A change of the causes in the states it moves (R113, R114, R120, R124, R126) -/

theorem causesChanged_of_opened (state : s.crossing.state = .opened) (caused : s.causes ≠ []) :
    s.causesChanged = s.enterAmber := by
  rw [State.causesChanged, state]
  exact if_neg (by simpa using caused)

theorem causesChanged_of_test (state : s.crossing.state = .testActive) (caused : s.causes ≠ []) :
    s.causesChanged = s.enterAmber.abandonStep := by
  rw [State.causesChanged, state]
  exact if_neg (by simpa using caused)

theorem causesChanged_of_isClosed (closed : s.crossing.state.isClosed = true) : s.causesChanged = s.openingCheck := by
  unfold State.causesChanged
  rcases (isClosed_iff _).1 closed with state | state <;> rw [state]

theorem openingCheck_of_caused (caused : s.causes ≠ []) : s.openingCheck = s := by
  have shut : s.mayOpen = false := by
    rw [Bool.eq_false_iff]
    exact fun may => caused (causes_of_mayOpen may)
  rw [State.openingCheck, shut, Bool.and_false]
  rfl

/-! ### The latches of the remote owner (R121, R139) -/

/-- The latch for closing stands, and that for opening has not come back. -/
def Latched (s t : State) : Prop :=
  t.crossing.remoteClose = s.crossing.remoteClose ∧ (s.crossing.remoteOpen = false → t.crossing.remoteOpen = false)

theorem latched_enter (s : State) (c : CrossingState) : Latched s (s.enter c) := by
  rw [Latched, (enter_entered s c).crossing]
  exact ⟨rfl, fun shut => by rw [State.enteredCrossing, shut, Bool.false_and]⟩

theorem latched_sendMachine (s : State) (i : Fin 4) (d : Dir) : Latched s (s.sendMachine i d) := by
  unfold State.sendMachine
  dsimp only
  split <;> exact ⟨rfl, id⟩

theorem latched_abandonStep (s : State) : Latched s s.abandonStep := by
  unfold State.abandonStep
  dsimp only
  split
  · split
    · exact latched_sendMachine _ _ _
    · exact ⟨rfl, id⟩
  · exact ⟨rfl, id⟩

theorem Latched.trans {u : State} (h : Latched s t) (k : Latched t u) : Latched s u := ⟨k.1.trans h.1, fun shut => k.2 (h.2 shut)⟩

theorem latched_enterAmber (s : State) : Latched s s.enterAmber := latched_enter s .amber

/-- While a cause stands, nothing that it leads to gives the latches back. -/
theorem latched_causesChanged (caused : s.causes ≠ []) : Latched s s.causesChanged := by
  rcases causesChanged_cases s with ⟨eq, -⟩ | ⟨-, -, eq⟩ | ⟨-, -, eq⟩ | ⟨-, -, eq⟩ | ⟨-, eq⟩
  · rw [eq]
    exact ⟨rfl, id⟩
  · rw [eq]
    exact latched_enterAmber s
  · rw [eq]
    exact (latched_enterAmber s).trans (latched_abandonStep _)
  · rw [eq]
    exact latched_enter s .lowerEntry
  · rw [eq, openingCheck_of_caused caused]
    exact ⟨rfl, id⟩

/-! ### The commands and the inputs of the owners (R138, R139) -/

/-- REMOTE CLOSE as REMOTE gives it (R139). -/
def State.remoteClosed (s : State) : State := { s with crossing := { s.crossing with remoteClose := true, remoteOpen := false } }

theorem caused_of_remote {s : State} (owner : s.authority.owner = .remote) (latch : s.crossing.remoteClose = true) :
    s.causes ≠ [] := by simp [State.causes, owner, latch]

theorem caused_of_panel {s : State} (owner : s.authority.owner = .localPanel) (level : s.pins.panelClose = true) :
    s.causes ≠ [] := by simp [State.causes, owner, level]

theorem exec_remoteClose_of_other (other : s.authority.owner ≠ .remote) (tag : Byte) :
    exec (.remoteClose tag) s = .next (s.hear.reply 0 tag .refusedState .none).settle :=
  exec_of_acts (boxCommand (cmdRemoteClose tag)) rfl (if_neg other)

theorem exec_remoteClose_of_remote (owner : s.authority.owner = .remote) (tag : Byte) : exec (.remoteClose tag) s =
    .next (s.hear.remoteClosed.causesChanged.reply 0 tag .done
      (.crossing s.hear.remoteClosed.causesChanged.crossing.state)).settle :=
  exec_of_acts (boxCommand (cmdRemoteClose tag)) rfl (if_pos owner)

theorem exec_remoteOpen_of_refused (refused : ¬ (s.authority.owner = .remote ∧ s.crossing.state.isClosed = true)) (tag : Byte) :
    exec (.remoteOpen tag) s = .next (s.hear.reply 0 tag .refusedState .none).settle :=
  exec_of_acts (boxCommand (cmdRemoteOpen tag)) rfl (if_neg refused)

theorem exec_remoteOpen_of_remote (owner : s.authority.owner = .remote) (closed : s.crossing.state.isClosed = true) (tag : Byte)
    {u : State} (permitted : u = State.openingCheck
      { s.hear with crossing := { s.crossing with remoteClose := false, remoteOpen := true } }) :
    exec (.remoteOpen tag) s = .next (u.reply 0 tag .done (.crossing u.crossing.state)).settle := by
  have checked := causesChanged_of_isClosed
    (s := { s.hear with crossing := { s.crossing with remoteClose := false, remoteOpen := true } }) closed
  rw [permitted, ← checked]
  exact exec_of_acts (boxCommand (cmdRemoteOpen tag)) rfl (if_pos ⟨owner, closed⟩)

theorem exec_panelClose_of_other {b : Bool} (other : s.authority.owner ≠ .localPanel) (new : s.pins.panelClose ≠ b) :
    exec (.panelCloseEdge b) s = .next (State.settle { s with pins := { s.pins with panelClose := b } }) :=
  exec_of_acts (opPanelClose b) rfl ((if_neg new).trans (if_neg other))

theorem exec_panelOpen_of_other {b : Bool} (other : s.authority.owner ≠ .localPanel) (new : s.pins.panelOpen ≠ b) :
    exec (.panelOpenEdge b) s = .next (State.settle { s with pins := { s.pins with panelOpen := b } }) :=
  exec_of_acts (opPanelOpen b) rfl ((if_neg new).trans (if_neg other))

theorem exec_panelClose_of_local {b : Bool} (owner : s.authority.owner = .localPanel) (new : s.pins.panelClose ≠ b) :
    exec (.panelCloseEdge b) s = .next (State.causesChanged { s with pins := { s.pins with panelClose := b } }).settle :=
  exec_of_acts (opPanelClose b) rfl ((if_neg new).trans (if_pos owner))

theorem exec_panelOpen_of_local {b : Bool} (owner : s.authority.owner = .localPanel) (new : s.pins.panelOpen ≠ b) :
    exec (.panelOpenEdge b) s = .next (State.causesChanged { s with pins := { s.pins with panelOpen := b } }).settle :=
  exec_of_acts (opPanelOpen b) rfl ((if_neg new).trans (if_pos owner))

/-- REMOTE CLOSE under REMOTE: the latches are as it sets them, and OPEN is left for AMBER (R114, R139). -/
theorem remoteClose_acts (owner : s.authority.owner = .remote) (idle : NoActivation s) (tag : Byte) :
    Reaches (.remoteClose tag) s fun t =>
      ControlFrame s.hear t ∧ t.crossing.remoteClose = true ∧ t.crossing.remoteOpen = false ∧
      (s.crossing.state = .opened → t.crossing.state = .amber ∧ t.crossing.entered = s.clock ∧
        t.crossing.stateTimer = some (s.clock + BitVec.ofNat 32 (s.par 0 Plan.tAmber)) ∧ t.lights.command = .amber ∧
        t.lights.audible = true) := by
  refine ⟨_, exec_remoteClose_of_remote owner tag, ?_⟩
  have caused : s.hear.remoteClosed.causes ≠ [] := caused_of_remote owner rfl
  obtain ⟨u, acts⟩ : ∃ u, s.hear.remoteClosed.causesChanged = u := ⟨_, rfl⟩
  have only : ControlOnly s.hear u := acts ▸ (crossing_only s.hear _).trans (causesChanged_only _)
  obtain ⟨closes, opens⟩ : Latched s.hear.remoteClosed u := acts ▸ latched_causesChanged caused
  rw [acts]
  have replied := reply_frame u 0 tag .done (.crossing u.crossing.state)
  have still : NoActivation (u.reply 0 tag .done (.crossing u.crossing.state)) := by
    rw [NoActivation, replied.blocks.2.2.2.2]
    exact only.idle idle
  rw [settle_of_idle still]
  have ended := replied.trans (finish_line_frame _)
  obtain ⟨crossing, -, lights, -, -⟩ := ended.blocks
  refine ⟨only.ended ended, ?_, ?_, fun state => ?_⟩
  · rw [crossing, closes]
    rfl
  · rw [crossing]
    exact opens rfl
  · have opened : s.hear.remoteClosed.crossing.state = .opened := state
    rw [causesChanged_of_opened opened caused, enterAmber_eq (by rw [opened]; rfl)] at acts
    rw [crossing, lights, ← acts]
    exact ⟨rfl, rfl, rfl, enteredLights_command rfl _, rfl⟩

/-- CLOSE at the panel under LOCAL takes OPEN to AMBER (R114, R138). -/
theorem panelClose_acts (owner : s.authority.owner = .localPanel) (state : s.crossing.state = .opened)
    (released : s.pins.panelClose = false) : Reaches (.panelCloseEdge true) s fun t =>
      ControlFrame { s with pins := { s.pins with panelClose := true } } t ∧ t.crossing.state = .amber ∧
      t.crossing.entered = s.clock ∧
      t.crossing.stateTimer = some (s.clock + BitVec.ofNat 32 (s.par 0 Plan.tAmber)) ∧ t.lights.command = .amber ∧
      t.lights.audible = true := by
  refine ⟨_, exec_panelClose_of_local owner (by rw [released]; nofun), ?_⟩
  obtain ⟨u, pressed⟩ : ∃ u : State, { s with pins := { s.pins with panelClose := true } } = u := ⟨_, rfl⟩
  have opened : u.crossing.state = .opened := pressed ▸ state
  have caused : u.causes ≠ [] := caused_of_panel (pressed ▸ owner) (pressed ▸ rfl)
  have only := causesChanged_only u
  rw [pressed]
  rw [causesChanged_of_opened opened caused, enterAmber_eq (by rw [opened]; rfl)] at only ⊢
  rw [settle_of_unmet (activationCondition_of_state (by simp) (by simp))]
  have ended := finish_line_frame { u with
      crossing := { u.crossing with
        state := .amber, entered := u.clock, stateTimer := some (after u.clock (u.par 0 Plan.tAmber)) }
      lights := u.enteredLights .amber }
  obtain ⟨crossing, -, lights, -, -⟩ := ended.blocks
  refine ⟨only.ended ended, ?_⟩
  rw [crossing, lights, ← pressed]
  exact ⟨rfl, rfl, rfl, enteredLights_command rfl _, rfl⟩

end Amber

/-- Settles O46: each command and input by its owner, then by the state it finds. -/
theorem ownersCommandsActUnderTheirOwner : Obligations.OwnersCommandsActUnderTheirOwner := by
  intro tag s
  refine ⟨fun other => ⟨exec_remoteClose_of_other other tag, exec_remoteOpen_of_refused (fun may => other may.1) tag⟩,
    fun closed degraded => ?_, fun owner idle => remoteClose_acts owner idle tag, fun owner state u permitted => ?_,
    fun b other new => exec_panelClose_of_other other new, fun b other new => exec_panelOpen_of_other other new,
    panelClose_acts, fun owner state => ⟨fun b new => ?_, fun b new => ?_⟩⟩
  · refine exec_remoteOpen_of_refused (fun may => ?_) tag
    exact ((isClosed_iff _).1 may.2).elim closed degraded
  · exact exec_remoteOpen_of_remote owner ((isClosed_iff _).2 state) tag permitted
  · rw [exec_panelClose_of_local owner new, causesChanged_of_isClosed]
    exact (isClosed_iff _).2 state
  · rw [exec_panelOpen_of_local owner new, causesChanged_of_isClosed]
    exact (isClosed_iff _).2 state

end Sys2Proof.Machine

namespace Sys2Proof.Machine

open Sys2Proof

/-! ### One position while the crossing sends its commands (R112, R159, R166) -/

/-- `Q` holds of the machine and of the last direction of position `i`. -/
def State.At (s : State) (i : Fin 4) (Q : MachineRec → Option Dir → Prop) : Prop :=
  Q s.barrier.machines[i] s.crossing.lastDir[i]

/-- A machine command that a position takes keeps `Q`. -/
def Commandable (Q : MachineRec → Option Dir → Prop) : Prop :=
  ∀ (now : Time) (r : MachineRec) (l : Option Dir) (d : Dir), r.state ≠ .failed → Q r l → Q (r.command now d) (some d)

/-- A law on the machines, the last directions and the zone that the commands of the crossing keep. -/
structure Commanding (P : State → Prop) : Prop where
  reads : ∀ {s t : State}, P s → t.barrier = s.barrier → t.crossing.lastDir = s.crossing.lastDir → P t
  sent : ∀ {s t : State} {dir : Fin 4 → Option Dir}, P s → Sent s t dir → P t
  waits : ∀ {s : State}, P s → P s.beginWait

theorem beginWait_cases (s : State) : s.beginWait = s ∨ ∃ start deadline, s.beginWait =
    { s with barrier := { s.barrier with zone :=
      { s.barrier.zone with waiting := true, holdStart := start, holdBy := deadline } } } := by
  by_cases waiting : s.barrier.zone.waiting = true
  · exact .inl (beginWait_of_waiting waiting)
  · exact .inr ⟨_, _, beginWait_of_new (Bool.eq_false_iff.2 waiting)⟩

/-- One position under the commands of the crossing. -/
theorem commanding_at {Q : MachineRec → Option Dir → Prop} (taken : Commandable Q) (i : Fin 4) :
    Commanding fun s => s.At i Q where
  reads {s t} k barrier lastDir := by
    unfold State.At at k ⊢
    rw [barrier, lastDir]
    exact k
  sent {s t dir} k sent := by
    unfold State.At at k ⊢
    rw [sent.machine, sent.lastDir]
    cases dir i with
    | none => rwa [Option.none_or, ite_self]
    | some d =>
      by_cases failed : s.barrier.machines[i].state = .failed
      · rw [if_pos failed, Option.elim_some, command_of_failed failed]
        exact k
      · rw [if_neg failed]
        exact taken _ _ _ d failed k
  waits {s} k := by
    rcases beginWait_cases s with eq | ⟨start, deadline, eq⟩ <;> rw [eq] <;> exact k

/-- No command of the crossing is one to the zone (R170, R171). -/
theorem commanding_occupied (b : Bool) : Commanding fun s => s.barrier.zone.occupied = b where
  reads k barrier _ := by rw [barrier, k]
  sent k sent := by rw [sent.frame, k]
  waits {s} k := by
    rcases beginWait_cases s with eq | ⟨start, deadline, eq⟩ <;> rw [eq] <;> exact k

section Commands

variable {P : State → Prop} (law : Commanding P) {s : State}
include law

theorem Commanding.elect (k : P s) : P s.elect := by
  unfold State.elect
  repeat' split
  · exact k
  · exact k
  · exact law.reads k rfl rfl

theorem Commanding.sendMachine (k : P s) (i : Fin 4) (d : Dir) : P (s.sendMachine i d) :=
  law.sent k ((sent_nothing s).sendIf rfl (i := i) (some d))

theorem Commanding.enterRecord (k : P s) (c : CrossingState) : P (s.enterRecord c) := by
  rw [enterRecord_eq]
  exact law.reads k rfl rfl

theorem Commanding.enter (k : P s) (c : CrossingState) : P (s.enter c) :=
  law.sent (law.enterRecord k c) (enter_sent s c)

theorem Commanding.enterAmber (k : P s) : P s.enterAmber := law.reads (law.enter k .amber) rfl rfl

theorem Commanding.enterOpen (k : P s) : P s.enterOpen := by
  have elected : P s.openEntered.elect := law.elect (law.reads (law.enter k .opened) rfl rfl)
  by_cases clear : s.openEntered.elect.causes = []
  · rw [enterOpen_of_clear s clear]
    exact elected
  · rw [enterOpen_of_caused s clear]
    exact law.enterAmber elected

theorem Commanding.openingCheck (k : P s) : P s.openingCheck := by
  have raising := law.enter k .raising
  unfold State.openingCheck State.enterRaising
  dsimp only
  repeat' split
  · exact law.enterOpen raising
  · exact raising
  · exact k

theorem Commanding.tryComplete (k : P s) : P s.tryComplete := by
  unfold State.tryComplete State.enterClosure
  split
  · exact law.openingCheck (law.elect (law.enter k _))
  · exact k

theorem Commanding.tryLowerExit (k : P s) : P s.tryLowerExit := by
  have lowered : P { s.enter .lowerExit with
      crossing := { (s.enter .lowerExit).crossing with exitTimer := none } } := law.reads (law.enter k .lowerExit) rfl rfl
  unfold State.tryLowerExit State.enterLowerExit
  repeat' split
  · exact law.waits k
  · exact law.tryComplete lowered
  · exact k

theorem Commanding.machinesChanged (k : P s) : P s.machinesChanged := by
  have moved (c : CrossingState) : P (s.moveClosure c) := law.openingCheck (law.enter k c)
  unfold State.machinesChanged
  split
  · exact law.tryLowerExit k
  · exact law.tryComplete k
  · split
    · exact moved _
    · exact k
  · split
    · exact moved _
    · exact k
  · split
    · exact law.enterOpen k
    · exact k
  · exact k

theorem Commanding.endStep (k : P s) (o : StepOutcome) : P (s.endStep o) := law.enterOpen (law.reads k rfl rfl)

theorem Commanding.cycleEnd (k : P s) (j : Fin 4) : P (s.cycleEnd j) := by
  unfold State.cycleEnd
  split
  · exact law.endStep k _
  · exact law.endStep k _
  · exact k

theorem Commanding.cycleRaise (k : P s) (j : Fin 4) : P (s.cycleRaise j) :=
  law.sendMachine (s := { s with authority := { s.authority with phase := .raising } }) (law.reads k rfl rfl) j .raise

theorem Commanding.cycleAdvance (k : P s) (j : Fin 4) : P (s.cycleAdvance j) := by
  unfold State.cycleAdvance
  repeat' split
  · exact law.cycleEnd (law.cycleRaise k j) j
  · exact law.cycleEnd k j
  · exact k

theorem Commanding.machineTold (k : P s) (j : Fin 4) : P (s.machineTold j) := by
  unfold State.machineTold
  split
  · exact law.cycleAdvance k j
  · exact law.machinesChanged k

theorem Commanding.sendAgain (k : P s) (j : Fin 4) : P (s.sendAgain j) := by
  unfold State.sendAgain
  split
  · exact k
  · exact law.sendMachine k j _

end Commands

/-! ### A machine record replaced (R112, R165, R166) -/

section Event

variable {s : State} {i : Fin 4} {r : MachineRec}

/-- A machine that enters FAILED: the last direction goes, and MACHINE_FAILED is raised with the class of the state (R165). -/
def State.failedMachine (s : State) (i : Fin 4) (r : MachineRec) : State :=
  State.raise { s with
      barrier := { s.barrier with machines := s.barrier.machines.set i r }
      crossing := { s.crossing with lastDir := s.crossing.lastDir.set i none } }
    .machineFailed ⟨.machine, i.val⟩ (if s.crossing.state = .opened then .urgent else .safety)

theorem putMachine_of_failing (failing : r.state = .failed) (working : s.barrier.machines[i].state ≠ .failed) :
    s.putMachine i r = s.failedMachine i r := if_pos ⟨failing, working⟩

theorem putMachine_of_kept (kept : r.state ≠ .failed ∨ s.barrier.machines[i].state = .failed) :
    s.putMachine i r = s.setMachine i r :=
  if_neg fun fails => kept.elim (fun works => works fails.1) fun failed => fails.2 failed

theorem putMachine_machine (s : State) (i : Fin 4) (r : MachineRec) : (s.putMachine i r).barrier.machines[i] = r := by
  unfold State.putMachine
  dsimp only
  split <;> exact getElem_set_fin_same _ _ _

/-- A change that no reader is told of: the state is as it was, or the position is absent. -/
theorem machineEvent_of_quiet (quiet : r.state = s.barrier.machines[i].state ∨ s.machinePresent i = false) :
    s.machineEvent i r = s.putMachine i r := by
  refine if_neg fun told => ?_
  rw [putMachine_machine] at told
  rcases quiet with same | absent
  · exact told.1 same
  · rw [absent] at told
    cases told.2

theorem machineEvent_of_told (changed : r.state ≠ s.barrier.machines[i].state) (present : s.machinePresent i = true) :
    s.machineEvent i r = (s.putMachine i r).machineTold i := by
  refine if_pos ⟨?_, present⟩
  rw [putMachine_machine]
  exact changed

/-- A position after its machine has entered FAILED stands as FAILED (R112, R165). -/
theorem machineEvent_of_failing (failing : r.state = .failed) (working : s.barrier.machines[i].state ≠ .failed) :
    (s.machineEvent i r).barrier.machines[i] = r ∧ (s.machineEvent i r).crossing.lastDir[i] = none := by
  have put : (s.putMachine i r).At i fun q l => q = r ∧ l = none := by
    rw [putMachine_of_failing failing working]
    exact ⟨getElem_set_fin_same _ _ _, getElem_set_fin_same _ _ _⟩
  have untaken : Commandable fun q l => q = r ∧ l = none := fun _ q _ _ works same =>
    absurd (by rw [same.1, failing]) works
  by_cases present : s.machinePresent i = true
  · rw [machineEvent_of_told (by rw [failing]; exact working.symm) present]
    exact (commanding_at untaken i).machineTold put i
  · rw [machineEvent_of_quiet (.inr (Bool.eq_false_iff.2 present))]
    exact put

theorem leaveDue_of_moving {now : Time} (moving : r.state = .lowering ∨ r.state = .raising) (notLeft : r.leaveMet = false)
    (reached : due r.leaveBy now = true) : r.leaveDue now = true := by
  rw [MachineRec.leaveDue, (isMoving_iff r).2 moving, notLeft, reached]
  rfl

theorem travelDue_of_moving {now : Time} (moving : r.state = .lowering ∨ r.state = .raising)
    (reached : due r.travelBy now = true) : r.travelDue now = true := by
  rw [MachineRec.travelDue, (isMoving_iff r).2 moving, reached]
  rfl

/-- A step whose operation is a machine event that fails the machine. -/
theorem reaches_failed {e : Instr} (idle : NoActivation s) (arm : exec e s = .next (s.machineEvent i r).settle)
    (failing : r.state = .failed) (working : s.barrier.machines[i].state ≠ .failed) :
    Reaches e s fun t => ControlFrame s t ∧ t.crossing.lastDir[i] = none ∧ t.barrier.machines[i] = r := by
  have only := machineEvent_only s i r
  obtain ⟨machine, lastDir⟩ := machineEvent_of_failing failing working
  refine ⟨_, arm, ?_⟩
  rw [settle_of_idle (only.idle idle)]
  have ended := finish_line_frame (s.machineEvent i r)
  obtain ⟨crossing, -, -, barrier, -⟩ := ended.blocks
  refine ⟨only.ended ended, ?_, ?_⟩
  · rw [crossing]
    exact lastDir
  · rw [barrier]
    exact machine

/-- Settles O53: the deadlines fail the machine by one record, which is then put and told. -/
theorem machineDeadlinesFailTheMachine : Obligations.MachineDeadlinesFailTheMachine := by
  refine ⟨fun i s r same => ⟨fun early => ?_, fun early => ?_, fun moving q failed => ?_⟩, fun i s u r replaced => ⟨?_, ?_, ?_⟩⟩
  · subst same
    exact exec_of_acts (opLeaveDeadline i) rfl (if_neg (Bool.eq_false_iff.1 early))
  · subst same
    exact exec_of_acts (opTravelDeadline i) rfl (if_neg (Bool.eq_false_iff.1 early))
  · subst same
    subst failed
    have working : s.barrier.machines[i].state ≠ .failed := by rcases moving with state | state <;> rw [state] <;> nofun
    have leave (notLeft : s.barrier.machines[i].leaveMet = false) (reached : due s.barrier.machines[i].leaveBy s.clock = true) :
        exec (.leaveDeadline i) s =
          .next (s.machineEvent i (s.barrier.machines[i].fail s.clock .noResponse)).settle :=
      exec_of_acts (opLeaveDeadline i) rfl (if_pos (leaveDue_of_moving moving notLeft reached))
    have travel (reached : due s.barrier.machines[i].travelBy s.clock = true) : exec (.travelDeadline i) s =
        .next (s.machineEvent i (s.barrier.machines[i].fail s.clock .travelTimeout)).settle :=
      exec_of_acts (opTravelDeadline i) rfl (if_pos (travelDue_of_moving moving reached))
    exact ⟨leave, travel, fun idle => ⟨fun notLeft reached => reaches_failed idle (leave notLeft reached) rfl working,
      fun reached => reaches_failed idle (travel reached) rfl working⟩⟩
  · intro quiet kept
    rw [machineEvent_of_quiet quiet, putMachine_of_kept kept, replaced]
    rfl
  · intro works changed present
    rw [machineEvent_of_told changed present, putMachine_of_kept (.inl works), replaced]
    rfl
  · intro failing working v raised
    have changed : r.state ≠ s.barrier.machines[i].state := by
      rw [failing]
      exact working.symm
    have put : s.putMachine i r = v := by rw [putMachine_of_failing failing working, raised, replaced, State.failedMachine]
    by_cases present : s.machinePresent i = true
    · rw [machineEvent_of_told changed present, put, if_neg (by rw [present]; nofun), raised, replaced]
      rfl
    · have absent := Bool.eq_false_iff.2 present
      rw [machineEvent_of_quiet (.inr absent), put, if_pos absent]

end Event

end Sys2Proof.Machine

namespace Sys2Proof.Machine

open Sys2Proof

/-! ### RESET EQUIPMENT of a machine (R112, R158, R167) -/

section ResetMachine

variable {s : State} {i : Fin 4} {r : MachineRec}

theorem exec_resetMachine (tag n : Byte) (s : State) :
    exec (.resetEquipmentMachine tag n) s = .next (cmdResetMachine tag n s.hear).settle := rfl

theorem exec_resetMachine_of_range {n : Byte} (beyond : 3 < n.toNat) (tag : Byte) :
    exec (.resetEquipmentMachine tag n) s = .next (s.hear.reply 0 tag .refusedRange .none).settle := by
  rw [exec_resetMachine, cmdResetMachine, dif_neg (by omega)]

theorem exec_resetMachine_of_refused {n : Byte} {o : ReplyOutcome} (index : n.toNat = i.val)
    (outcome : s.resetMachineOutcome i = o) (refused : o ≠ .done) (tag : Byte) :
    exec (.resetEquipmentMachine tag n) s = .next (s.hear.reply 0 tag o .none).settle := by
  have within : n.toNat < 4 := index ▸ i.isLt
  obtain rfl : i = ⟨n.toNat, within⟩ := Fin.ext index.symm
  have hears : s.hear.resetMachineOutcome ⟨n.toNat, within⟩ = o := outcome
  rw [exec_resetMachine, cmdResetMachine, dif_pos within]
  dsimp only
  rw [hears]
  cases o with
  | done => exact absurd rfl refused
  | _ => rfl

theorem exec_resetMachine_of_done {n : Byte} (index : n.toNat = i.val) (outcome : s.resetMachineOutcome i = .done)
    (tag : Byte) : exec (.resetEquipmentMachine tag n) s = .next ((s.hear.resetMachine i).reply 0 tag .done
      (.machine (s.barrier.machines[i].fromDetectors s.clock true).state)).settle := by
  have within : n.toNat < 4 := index ▸ i.isLt
  obtain rfl : i = ⟨n.toNat, within⟩ := Fin.ext index.symm
  have hears : s.hear.resetMachineOutcome ⟨n.toNat, within⟩ = .done := outcome
  rw [exec_resetMachine, cmdResetMachine, dif_pos within]
  dsimp only
  rw [hears]
  rfl

/-! The conditions in their order. -/

theorem resetMachineOutcome_of_absent (absent : s.machinePresent i = false) : s.resetMachineOutcome i = .refusedRange := by
  simp [State.resetMachineOutcome, absent]

theorem resetMachineOutcome_of_present (present : s.machinePresent i = true) : s.resetMachineOutcome i =
    if s.barrier.machines[i].state ≠ .failed then .refusedState
    else if s.barrier.machines[i].boom && !(s.barrier.machines[i].up && s.barrier.machines[i].down) then .done
    else .refusedState := if_neg (by rw [present]; nofun)

theorem resetMachineOutcome_of_bad (present : s.machinePresent i = true) (bad : s.barrier.machines[i].state ≠ .failed ∨
    s.barrier.machines[i].boom = false ∨ s.barrier.machines[i].up = true ∧ s.barrier.machines[i].down = true) :
    s.resetMachineOutcome i = .refusedState := by
  rw [resetMachineOutcome_of_present present]
  by_cases failed : s.barrier.machines[i].state = .failed
  · rw [if_neg (not_not_intro failed)]
    refine if_neg ?_
    rcases bad.resolve_left (not_not_intro failed) with boom | ⟨up, down⟩
    · rw [boom]
      nofun
    · rw [up, down, Bool.and_self, Bool.not_true, Bool.and_false]
      nofun
  · exact if_pos failed

theorem not_both {a b : Bool} (apart : ¬ (a = true ∧ b = true)) : (a && b) = false := by
  rw [Bool.eq_false_iff, Ne, Bool.and_eq_true]
  exact apart

theorem resetMachineOutcome_of_good (present : s.machinePresent i = true) (failed : s.barrier.machines[i].state = .failed)
    (boom : s.barrier.machines[i].boom = true)
    (apart : ¬ (s.barrier.machines[i].up = true ∧ s.barrier.machines[i].down = true)) : s.resetMachineOutcome i = .done := by
  rw [resetMachineOutcome_of_present present, if_neg (not_not_intro failed), boom, not_both apart]
  rfl

/-! The record read from the detectors. -/

/-- A machine record as its detectors show it, out of FAILED (R158). -/
def MachineRec.read (r : MachineRec) : MachineRec :=
  { r with
    state := if r.up then .upProved else if r.down then .downProved else .halted, drive := none, commanded := none,
    leaveBy := none, travelBy := none, leaveMet := false, cause := .none }

theorem restState_of_apart {up down : Bool} (apart : ¬ (up = true ∧ down = true)) :
    restState up down = if up then .upProved else if down then .downProved else .halted := by
  cases up <;> cases down <;> simp_all [restState]

theorem fromDetectors_of_good (boom : r.boom = true) (apart : ¬ (r.up = true ∧ r.down = true)) (now : Time) :
    r.fromDetectors now true = r.read := by
  have held : (true && !r.boom) = false := by rw [boom]; rfl
  have agree : (true && r.up && r.down) = false := by rw [Bool.true_and, not_both apart]
  unfold MachineRec.fromDetectors
  dsimp only
  rw [held, agree, if_neg nofun, if_neg nofun, restState_of_apart apart]
  rfl

theorem read_state_ne_failed (r : MachineRec) : r.read.state ≠ .failed := by
  unfold MachineRec.read
  dsimp only
  repeat' split
  all_goals nofun

/-- In service, without a cause of failure, and with the time of the last failure kept (R165, R167). -/
def InService (failTime : Option Time) (r : MachineRec) (_ : Option Dir) : Prop :=
  r.state ≠ .failed ∧ r.cause = .none ∧ r.failTime = failTime

/-- A movement as it begins, the drive on and both limits running (R159, R160, R161). -/
def MachineRec.moves (now : Time) (d : Dir) (r : MachineRec) : MachineRec :=
  { r with state := d.moving, commanded := some d, drive := some d, cmdTime := some now, leaveMet := r.hasLeft d,
           leaveBy := if r.hasLeft d then none else some (after now r.tLeave), travelBy := some (after now r.tTravel) }

/-- It is proved at once where its detector is active already (R162). -/
theorem start_eq (r : MachineRec) (now : Time) (d : Dir) :
    r.start now d = if (r.moves now d).target d then (r.moves now d).prove now d else r.moves now d := rfl

theorem start_service (r : MachineRec) (now : Time) (d : Dir) : (r.start now d).state ≠ .failed ∧
    (r.start now d).cause = r.cause ∧ (r.start now d).failTime = r.failTime := by
  rw [start_eq]
  split
  · exact ⟨by cases d <;> nofun, rfl, rfl⟩
  · exact ⟨by cases d <;> nofun, rfl, rfl⟩

theorem commandable_inService (failTime : Option Time) : Commandable (InService failTime) := by
  rintro now r l d - ⟨works, cause, time⟩
  unfold MachineRec.command
  rw [if_neg works]
  split
  · exact ⟨works, cause, time⟩
  · split
    · exact ⟨works, cause, time⟩
    · obtain ⟨state, cause', time'⟩ := start_service r now d
      exact ⟨state, cause'.trans cause, time'.trans time⟩

/-! The machine returned to service. -/

/-- The machine out of FAILED and its fault cleared, before its direction is sent again (R167). -/
def State.machineRead (s : State) (i : Fin 4) : State :=
  (s.setMachine i s.barrier.machines[i].read).clear .machineFailed ⟨.machine, i.val⟩

theorem resetMachine_eq (boom : s.barrier.machines[i].boom = true)
    (apart : ¬ (s.barrier.machines[i].up = true ∧ s.barrier.machines[i].down = true)) :
    s.resetMachine i = ((s.machineRead i).sendAgain i).machineTold i := by
  unfold State.resetMachine
  rw [fromDetectors_of_good boom apart]
  rfl

theorem machineRead_machine (s : State) (i : Fin 4) : (s.machineRead i).barrier.machines[i] = s.barrier.machines[i].read :=
  getElem_set_fin_same _ _ _

theorem machineRead_inService (s : State) (i : Fin 4) :
    (s.machineRead i).At i (InService s.barrier.machines[i].failTime) := by
  unfold State.At
  rw [machineRead_machine]
  exact ⟨read_state_ne_failed _, rfl, rfl⟩

/-- AMBER and RED_LEAD give no direction and wait for no machine (R111, R115, R116). -/
theorem resetMachine_of_leading (state : s.crossing.state = .amber ∨ s.crossing.state = .redLead) (i : Fin 4) :
    (s.sendAgain i).machineTold i = s := by
  have silent : s.sendAgain i = s := by
    unfold State.sendAgain
    rcases state with state | state <;> rw [state] <;> rfl
  rw [silent]
  unfold State.machineTold State.machinesChanged
  rcases state with state | state <;> rw [state] <;> rfl

/-- In a state that gives the direction `d`, it is sent, and the crossing is told (R112, R166). -/
theorem resetMachine_of_direction {d : Dir} (direction : s.crossing.state.direction (s.role i) = some d) :
    (s.machineRead i).sendAgain i =
      { s.clear .machineFailed ⟨.machine, i.val⟩ with
        crossing := { s.crossing with lastDir := s.crossing.lastDir.set i (some d) }
        barrier := { s.barrier with
          machines := s.barrier.machines.set i (s.barrier.machines[i].read.command s.clock d) } } := by
  have again : (s.machineRead i).sendAgain i = (s.machineRead i).sendMachine i d := by
    unfold State.sendAgain
    rw [show (s.machineRead i).crossing.state.direction ((s.machineRead i).role i) = some d from direction]
  have works : (s.machineRead i).barrier.machines[i].state ≠ .failed := by
    rw [machineRead_machine]
    exact read_state_ne_failed _
  rw [again, sendMachine_of_working works, machineRead_machine]
  have twice : (s.machineRead i).barrier.machines.set i (s.barrier.machines[i].read.command (s.machineRead i).clock d) =
      s.barrier.machines.set i (s.barrier.machines[i].read.command s.clock d) := Vector.set_set ..
  rw [twice]
  rfl

theorem direction_of_state {c : CrossingState} {d : Dir} {role : Role}
    (gives : ((c = .opened ∨ c = .raising) ∧ d = .raise) ∨ ((c = .lowerExit ∨ c = .closed ∨ c = .degraded) ∧ d = .lower) ∨
      (c = .lowerEntry ∧ d = if role = .entry then .lower else .raise)) :
    c.direction role = some d ∧ c ≠ .testActive := by
  rcases gives with ⟨state, rfl⟩ | ⟨state, rfl⟩ | ⟨rfl, rfl⟩
  · rcases state with rfl | rfl <;> exact ⟨rfl, nofun⟩
  · rcases state with rfl | rfl | rfl <;> exact ⟨rfl, nofun⟩
  · exact ⟨lowerEntry_direction role, nofun⟩

theorem machineTold_of_sequence {s : State} (i : Fin 4) (other : s.crossing.state ≠ .testActive) :
    s.machineTold i = s.machinesChanged := if_neg other

/-- The reset of a machine that may be returned to service (R167). -/
theorem resetMachine_reached (idle : NoActivation s) {n tag : Byte} (index : n.toNat = i.val)
    (present : s.machinePresent i = true) (failed : s.barrier.machines[i].state = .failed)
    (boom : s.barrier.machines[i].boom = true)
    (apart : ¬ (s.barrier.machines[i].up = true ∧ s.barrier.machines[i].down = true)) :
    Reaches (.resetEquipmentMachine tag n) s fun t =>
      ControlFrame s.hear t ∧ t.barrier.machines[i].state ≠ .failed ∧ t.barrier.machines[i].cause = .none ∧
      t.barrier.machines[i].failTime = s.barrier.machines[i].failTime ∧
      (s.crossing.state = .amber ∨ s.crossing.state = .redLead →
        t.crossing = s.crossing ∧ t.barrier.machines[i] = s.barrier.machines[i].read) := by
  refine ⟨_, exec_resetMachine_of_done index (resetMachineOutcome_of_good present failed boom apart) tag, ?_⟩
  obtain ⟨u, reset⟩ : ∃ u, s.hear.resetMachine i = u := ⟨_, rfl⟩
  have told : u = ((s.hear.machineRead i).sendAgain i).machineTold i := reset ▸ resetMachine_eq boom apart
  have only : ControlOnly s.hear u := by
    rw [told]
    exact ((setMachine_only _ i _).trans (clear_only _ _ _)).trans ((sendAgain_only _ i).trans (machineTold_only _ i))
  have service : u.At i (InService s.barrier.machines[i].failTime) := by
    rw [told]
    have law := commanding_at (commandable_inService s.barrier.machines[i].failTime) i
    exact law.machineTold (law.sendAgain (machineRead_inService s.hear i) i) i
  rw [reset]
  obtain ⟨data, shown⟩ : ∃ data, ReplyData.machine (s.barrier.machines[i].fromDetectors s.clock true).state = data := ⟨_, rfl⟩
  rw [shown]
  have replied := reply_frame u 0 tag .done data
  have still : NoActivation (u.reply 0 tag .done data) := by
    rw [NoActivation, replied.blocks.2.2.2.2]
    exact only.idle idle
  rw [settle_of_idle still]
  have ended := replied.trans (finish_line_frame _)
  obtain ⟨crossing, -, -, barrier, -⟩ := ended.blocks
  obtain ⟨works, cause, time⟩ := service
  refine ⟨only.ended ended, ?_⟩
  rw [crossing, barrier]
  refine ⟨works, cause, time, fun leading => ?_⟩
  rw [told, resetMachine_of_leading (s := s.hear.machineRead i) leading]
  exact ⟨rfl, machineRead_machine _ _⟩

/-- Settles O54: the conditions in their order, then the record of the detectors, the direction of the state and its
readers. -/
theorem resetMachineReadsItsDetectors : Obligations.ResetMachineReadsItsDetectors := by
  refine fun tag n s => ⟨fun beyond => exec_resetMachine_of_range beyond tag, fun i r index same => ?_⟩
  subst same
  refine ⟨fun absent => ?_, fun present bad => ?_, fun present failed boom apart idle => ?_,
    fun d q u present failed boom apart gives read sent => ?_⟩
  · exact exec_resetMachine_of_refused index (resetMachineOutcome_of_absent absent) nofun tag
  · exact exec_resetMachine_of_refused index (resetMachineOutcome_of_bad present bad) nofun tag
  · exact resetMachine_reached idle index present failed boom apart
  · obtain ⟨direction, sequence⟩ := direction_of_state gives
    have again : (s.hear.machineRead i).sendAgain i = u := by
      rw [sent, read]
      exact resetMachine_of_direction (s := s.hear) direction
    have state : u.crossing.state = s.crossing.state := by rw [sent]
    rw [exec_resetMachine_of_done index (resetMachineOutcome_of_good present failed boom apart),
      resetMachine_eq (s := s.hear) boom apart, again, fromDetectors_of_good boom apart, read,
      machineTold_of_sequence i (by rw [state]; exact sequence)]
    rfl

end ResetMachine

end Sys2Proof.Machine

namespace Sys2Proof.Machine

open Sys2Proof

/-! ### The return from LOWER_EXIT (R118, log 47) -/

section ZoneReturn

variable {s t u : State} {i : Fin 4}

/-- LOWER_ENTRY entered again, with RAISE sent to the exit machines that are not down (R118, R112). -/
def State.returned (s : State) : State :=
  (List.finRange 4).foldl (fun t i => if t.alreadyDown i then t else State.sendTo .lowerEntry t i) (s.enterRecord .lowerEntry)

theorem zoneReturn_eq (s : State) : s.zoneReturn = s.returned.tryLowerExit := rfl

/-- The direction that the return sends to position `i`. -/
def State.sentBack (s : State) (i : Fin 4) : Option Dir := if s.alreadyDown i then none else s.sentTo .lowerEntry i

theorem alreadyDown_congr (pending : t.pending = s.pending) (clock : t.clock = s.clock)
    (machine : t.barrier.machines[i] = s.barrier.machines[i]) : t.alreadyDown i = s.alreadyDown i := by
  have waits : t.sameMoment = s.sameMoment := congrArg (List.takeWhile _) pending
  unfold State.alreadyDown
  rw [machine, clock, waits]

theorem returned_sent (s : State) : Sent (s.enterRecord .lowerEntry) s.returned (s.enterRecord .lowerEntry).sentBack := by
  refine sent_foldl (sends := State.sentBack) (fun t i => ?_) fun {t dir i} h none => ?_
  · rw [State.sentBack]
    split
    · rfl
    · exact sendTo_eq t .lowerEntry i
  · obtain ⟨pending, clock, -⟩ := h.same
    rw [State.sentBack, State.sentBack, alreadyDown_congr pending clock (h.unsent none).1, sentTo_apart h none]

/-- Machine `i` is down, or brought down by the changes that wait at the same moment (log 47). -/
theorem alreadyDown_iff (s : State) (i : Fin 4) : s.alreadyDown i = true ↔ s.barrier.machines[i].state = .downProved ∨
    (s.sameMoment.foldl (MachineRec.afterWaiting s.clock i) s.barrier.machines[i]).state = .downProved := by
  simp [State.alreadyDown]

/-- What the return does: the record, the lights, and at each position what is sent back. -/
structure Returned (s u : State) : Prop where
  frame : u = { s with crossing := u.crossing, lights := s.enteredLights .lowerEntry
                       barrier := { s.barrier with machines := u.barrier.machines } }
  crossing : u.crossing = { s.enteredCrossing .lowerEntry with lastDir := u.crossing.lastDir }
  machine : ∀ i : Fin 4, u.barrier.machines[i] =
    (s.sentBack i).elim s.barrier.machines[i] fun d => s.barrier.machines[i].command s.clock d
  lastDir : ∀ i : Fin 4, u.crossing.lastDir[i] =
    if s.barrier.machines[i].state = .failed then s.crossing.lastDir[i] else (s.sentBack i).or s.crossing.lastDir[i]

theorem returned_back (s : State) : Returned s s.returned := by
  have sent := returned_sent s
  rw [enterRecord_eq] at sent
  obtain ⟨frame, machine, lastDir⟩ := sent
  exact ⟨by rw [frame], by rw [frame], machine, lastDir⟩

theorem Returned.state (h : Returned s u) : u.crossing.state = .lowerEntry := congrArg CrossingRec.state h.crossing

theorem Returned.blocks (h : Returned s u) : u = { s with crossing := u.crossing, lights := u.lights, barrier := u.barrier } := by
  rw [h.frame]

theorem Returned.zone (h : Returned s u) : u.barrier.zone = s.barrier.zone := by rw [h.frame]

theorem Returned.lights (h : Returned s u) : u.lights = s.enteredLights .lowerEntry := by rw [h.frame]

/-- A position that is sent nothing stands. -/
theorem Returned.unsent (h : Returned s u) (none : s.sentBack i = none) :
    u.barrier.machines[i] = s.barrier.machines[i] ∧ u.crossing.lastDir[i] = s.crossing.lastDir[i] := by
  refine ⟨(h.machine i).trans (by rw [none]; rfl), (h.lastDir i).trans ?_⟩
  rw [none, Option.none_or, ite_self]

theorem sentBack_of_down (down : s.alreadyDown i = true) : s.sentBack i = none := if_pos down

theorem sentBack_of_exit (present : s.machinePresent i = true) (exit : s.role i = .exit) (up : s.alreadyDown i = false) :
    s.sentBack i = if s.crossing.lastDir[i] = some .raise then none else some .raise := by
  rw [State.sentBack, up, if_neg nofun]
  exact sentTo_of_direction present (by rw [exit]; rfl)

/-- A FAILED exit machine, one that is down and one last sent RAISE stand. -/
theorem Returned.stands (h : Returned s u) (present : s.machinePresent i = true) (exit : s.role i = .exit)
    (stays : s.alreadyDown i = true ∨ s.barrier.machines[i].state = .failed ∨ s.crossing.lastDir[i] = some .raise) :
    u.barrier.machines[i] = s.barrier.machines[i] ∧ u.crossing.lastDir[i] = s.crossing.lastDir[i] := by
  by_cases down : s.alreadyDown i = true
  · exact h.unsent (sentBack_of_down down)
  · rcases stays.resolve_left down with failed | last
    · refine ⟨?_, (h.lastDir i).trans (if_pos failed)⟩
      rw [h.machine]
      cases s.sentBack i with
      | none => rfl
      | some d => exact command_of_failed failed _ d
    · exact h.unsent ((sentBack_of_exit present exit (Bool.eq_false_iff.2 down)).trans (if_pos last))

/-- Every other exit machine is sent RAISE. -/
theorem Returned.raised (h : Returned s u) (present : s.machinePresent i = true) (exit : s.role i = .exit)
    (up : s.alreadyDown i = false) (works : s.barrier.machines[i].state ≠ .failed)
    (last : s.crossing.lastDir[i] ≠ some .raise) :
    u.barrier.machines[i] = s.barrier.machines[i].command s.clock .raise ∧ u.crossing.lastDir[i] = some .raise := by
  have sent : s.sentBack i = some .raise := (sentBack_of_exit present exit up).trans (if_neg last)
  refine ⟨(h.machine i).trans ?_, (h.lastDir i).trans ?_⟩
  · rw [sent]
    rfl
  · rw [if_neg works, sent, Option.some_or]

/-! ### The zone edge (R170, R171) -/

/-- The zone as an edge enters it (R170). -/
def State.zoneEntered (s : State) (b : Bool) : State := s.setZone { s.barrier.zone with occupied := b }

theorem exec_zoneEdge_of_held {b : Bool} (held : s.barrier.zone.occupied = b) : exec (.zoneEdge b) s = .next s.settle :=
  exec_of_acts (opZoneEdge b) rfl (if_pos held)

theorem exec_zoneEdge_of_new {b : Bool} (new : s.barrier.zone.occupied ≠ b) :
    exec (.zoneEdge b) s = .next (s.zoneEntered b).zoneTold.settle :=
  exec_of_acts (opZoneEdge b) rfl (if_neg new)

theorem zoneTold_of_lowerExit (state : s.crossing.state = .lowerExit) (occupied : s.barrier.zone.occupied = true) :
    s.zoneTold = s.returned.machinesChanged := by
  rw [machinesChanged_of_lowerEntry (returned_back s).state, ← zoneReturn_eq, State.zoneTold, state]
  exact if_pos occupied

theorem zoneTold_of_cleared (state : s.crossing.state = .lowerEntry) (clear : s.barrier.zone.occupied = false) :
    s.zoneTold = s.endWait.tryLowerExit := by
  rw [State.zoneTold, state]
  exact if_neg (Bool.eq_false_iff.1 clear)

theorem zoneTold_of_aside (state : s.crossing.state = .closed ∨ s.crossing.state = .degraded ∨ s.crossing.state = .opened ∨
    s.crossing.state = .raising) : s.zoneTold = s := by
  unfold State.zoneTold
  rcases state with state | state | state | state <;> rw [state]

theorem endWait_occupied (s : State) : s.endWait.barrier.zone.occupied = s.barrier.zone.occupied := by
  unfold State.endWait
  dsimp only
  repeat' split
  · rfl
  · rfl
  · rfl

/-- No reader of the zone changes its level. -/
theorem zoneTold_occupied (s : State) : s.zoneTold.barrier.zone.occupied = s.barrier.zone.occupied := by
  have law := commanding_occupied s.barrier.zone.occupied
  unfold State.zoneTold
  split
  · split
    · rw [zoneReturn_eq]
      exact law.tryLowerExit (congrArg ZoneRec.occupied (returned_back s).zone)
    · rfl
  · split
    · exact law.tryLowerExit rfl
    · exact law.tryLowerExit (endWait_occupied s)
  · unfold State.cycleZone
    repeat' split
    · exact law.cycleEnd (law.cycleRaise rfl _) _
    · rfl
    · rfl
  · rfl

/-- While the zone is occupied, machines in LOWER_ENTRY bring no more than the wait on it (R117). -/
theorem machinesChanged_of_occupied (state : s.crossing.state = .lowerEntry) (occupied : s.barrier.zone.occupied = true) :
    s.machinesChanged = s ∨ s.machinesChanged = s.beginWait := by
  rw [machinesChanged_of_lowerEntry state]
  by_cases done : s.entryDone = true
  · by_cases run : s.crossing.exitRun = true
    · exact .inr (tryLowerExit_of_occupied done run occupied)
    · exact .inl (tryLowerExit_of_undone (.inr (Bool.eq_false_iff.2 run)))
  · exact .inl (tryLowerExit_of_undone (.inl (Bool.eq_false_iff.2 done)))

/-- The wait on the zone is a matter of the zone record alone. -/
theorem machinesChanged_waiting (state : s.crossing.state = .lowerEntry) (occupied : s.barrier.zone.occupied = true) :
    s.machinesChanged.crossing = s.crossing ∧ s.machinesChanged.lights = s.lights ∧
      s.machinesChanged.barrier.machines = s.barrier.machines := by
  rcases machinesChanged_of_occupied state occupied with eq | eq <;> rw [eq]
  · exact ⟨rfl, rfl, rfl⟩
  · rcases beginWait_cases s with eq | ⟨start, deadline, eq⟩ <;> rw [eq] <;> exact ⟨rfl, rfl, rfl⟩

/-- The end of the wait as the edge that clears the zone brings it (R171). -/
theorem endWait_cleared (s : State) : (s.zoneEntered false).endWait =
    let u := { s with barrier := { s.barrier with zone :=
      if s.barrier.zone.waiting then ⟨false, false, none, none, false⟩ else { s.barrier.zone with occupied := false } } }
    if s.barrier.zone.waiting = true ∧ s.barrier.zone.condition = true then u.clear .zoneHold ⟨.zone, 0⟩ else u := by
  unfold State.endWait State.zoneEntered
  by_cases waiting : s.barrier.zone.waiting = true
  · by_cases condition : s.barrier.zone.condition = true <;> simp [State.setZone, waiting, condition]
  · simp [State.setZone, waiting]

/-- The zone cleared in LOWER_ENTRY: the wait ends, and LOWER_EXIT follows when nothing else holds it (R117, R171). -/
theorem zoneEdge_clears (state : s.crossing.state = .lowerEntry) (occupied : s.barrier.zone.occupied = true) {v : State}
    (ended : v = (s.zoneEntered false).endWait) :
    exec (.zoneEdge false) s = .next v.machinesChanged.settle ∧
      (s.entryDone = true → s.crossing.exitRun = true →
        ∃ w : State, v.machinesChanged = w.tryComplete ∧ w.crossing.state = .lowerExit) := by
  have only : ControlOnly (s.zoneEntered false) v := ended ▸ endWait_only _
  have kept : v.crossing = s.crossing ∧ v.barrier.machines = s.barrier.machines ∧ v.barrier.zone.occupied = false := by
    rw [ended, endWait_cleared]
    dsimp only
    repeat' split
    all_goals exact ⟨rfl, rfl, rfl⟩
  obtain ⟨crossing, machines, clear⟩ := kept
  have store : v.store = s.store := only.keeps.2.2.2.2.2.1
  have told : v.machinesChanged = v.tryLowerExit := machinesChanged_of_lowerEntry (by rw [crossing, state])
  refine ⟨?_, fun done run => ?_⟩
  · rw [exec_zoneEdge_of_new (by rw [occupied]; nofun), zoneTold_of_cleared (s := s.zoneEntered false) state rfl, ← ended, told]
  · have same : v.entryDone = State.entryDone
        { s with store := v.store, barrier := { s.barrier with machines := v.barrier.machines } } := rfl
    have entry : v.entryDone = true := by
      rw [same, store, machines]
      exact done
    obtain ⟨w, lowers, exit⟩ := enterLowerExit_entered v
    exact ⟨w, by rw [told, tryLowerExit_of_clear entry (by rw [crossing, run]) clear, lowers], exit.state⟩

/-- The zone occupied in LOWER_EXIT (R118, R112). -/
theorem zoneEdge_returns (state : s.crossing.state = .lowerExit) (clear : s.barrier.zone.occupied = false) :
    exec (.zoneEdge true) s = .next (s.zoneEntered true).returned.machinesChanged.settle := by
  rw [exec_zoneEdge_of_new (by rw [clear]; nofun), zoneTold_of_lowerExit (s := s.zoneEntered true) state rfl]

theorem returned_crossing (state : s.crossing.state = .lowerExit) (h : Returned s u) : u.crossing =
    { s.crossing with state := .lowerEntry, entered := s.clock, lastDir := u.crossing.lastDir } := by
  have crossing := h.crossing
  rw [enteredCrossing_of_kept (.inr (by rw [state]; rfl))] at crossing
  exact crossing

/-- With no activation waiting, the zone is as the edge has it, and each state has made of it what it makes (R117, R118). -/
theorem zoneEdge_reached {b : Bool} (new : s.barrier.zone.occupied ≠ b) (idle : NoActivation s) :
    Reaches (.zoneEdge b) s fun t => ControlFrame s t ∧ t.barrier.zone.occupied = b ∧
      (s.crossing.state = .lowerExit → b = true → t.crossing.state = .lowerEntry ∧ t.crossing.entered = s.clock ∧
        t.crossing.loweringStart = s.crossing.loweringStart ∧ t.crossing.exitTimer = s.crossing.exitTimer ∧
        t.lights.audible = true) ∧
      (s.crossing.state = .closed ∨ s.crossing.state = .degraded ∨ s.crossing.state = .opened ∨ s.crossing.state = .raising →
        t.crossing = s.crossing ∧ t.barrier = { s.barrier with zone := { s.barrier.zone with occupied := b } }) := by
  have only : ControlOnly s (s.zoneEntered b).zoneTold := (setZone_only _ _).trans (zoneTold_only _)
  refine ⟨_, exec_zoneEdge_of_new new, ?_⟩
  rw [settle_of_idle (only.idle idle)]
  have ended := finish_line_frame (s.zoneEntered b).zoneTold
  obtain ⟨crossing, -, lights, barrier, -⟩ := ended.blocks
  refine ⟨only.ended ended, ?_⟩
  rw [crossing, lights, barrier]
  refine ⟨zoneTold_occupied _, fun state occupied => ?_, fun state => ?_⟩
  · have back := returned_back (s.zoneEntered b)
    obtain ⟨crossing, lights, -⟩ := machinesChanged_waiting back.state ((congrArg ZoneRec.occupied back.zone).trans occupied)
    rw [zoneTold_of_lowerExit (s := s.zoneEntered b) state occupied, crossing, lights,
      returned_crossing (s := s.zoneEntered b) state back, back.lights]
    exact ⟨rfl, rfl, rfl, rfl, rfl⟩
  · rw [zoneTold_of_aside (s := s.zoneEntered b) state]
    exact ⟨rfl, rfl⟩

/-- An exit machine at the return, by the changes of its detectors that wait (R118, R112; log 47). -/
theorem returned_exit {q : MachineRec} {down : Prop} (back : Returned (s.zoneEntered true) u)
    (present : s.machinePresent i = true) (exit : s.role i = .exit)
    (waiting : q = s.sameMoment.foldl (MachineRec.afterWaiting s.clock i) s.barrier.machines[i])
    (is_down : down ↔ s.barrier.machines[i].state = .downProved ∨ q.state = .downProved) :
    (down ∨ s.barrier.machines[i].state = .failed ∨ s.crossing.lastDir[i] = some .raise →
      u.barrier.machines[i] = s.barrier.machines[i] ∧ u.crossing.lastDir[i] = s.crossing.lastDir[i]) ∧
    (¬ down → s.barrier.machines[i].state ≠ .failed → s.crossing.lastDir[i] ≠ some .raise →
      u.barrier.machines[i] = s.barrier.machines[i].command s.clock .raise ∧ u.crossing.lastDir[i] = some .raise) := by
  have already : (s.zoneEntered true).alreadyDown i = true ↔ down := by
    rw [is_down, waiting]
    exact alreadyDown_iff (s.zoneEntered true) i
  refine ⟨fun stays => back.stands present exit (stays.imp_left already.2), fun up works last => ?_⟩
  exact back.raised present exit (Bool.eq_false_iff.2 fun is => up (already.1 is)) works last

/-! ### The same moment (log 47) -/

/-- A moving machine that finds its target is proved, and its drive goes off (R161). -/
theorem travelled_of_target {r : MachineRec} {d : Dir} (there : r.target d = true) (now : Time) :
    (r.travelled now d).state = d.proved ∧ (r.travelled now d).drive = none := by
  have still : (if r.hasLeft d then { r with leaveMet := true, leaveBy := none } else r).target d = true := by
    split
    · cases d <;> exact there
    · exact there
  unfold MachineRec.travelled
  dsimp only
  rw [if_pos still]
  exact ⟨rfl, rfl⟩

theorem detectors_of_lowering {r : MachineRec} (state : r.state = .lowering) (now : Time) :
    (r.detectors now true false true true).state = .downProved ∧ (r.detectors now true false true true).drive = none := by
  unfold MachineRec.detectors
  dsimp only
  rw [if_neg (by rw [state]; nofun), Bool.not_true, Bool.and_false, if_neg nofun, Bool.and_false, Bool.false_and,
    Bool.false_and, if_neg nofun, state]
  exact travelled_of_target rfl now

theorem opDetectorChange_of_present {up down boom : Bool} (present : s.machinePresent i = true)
    (new : s.barrier.machines[i].down ≠ down) : opDetectorChange i up down boom s =
      s.machineEvent i (s.barrier.machines[i].detectors s.clock true up down boom) := by
  have supervised : s.supervised i = true := by
    unfold State.machinePresent State.par at present
    unfold State.supervised State.par
    split
    · rfl
    next p plan =>
      rw [plan] at present
      exact present
  unfold opDetectorChange
  dsimp only
  rw [if_neg fun same => new same.2.1, if_pos supervised, present]

/-- In LOWER_ENTRY with the zone occupied, a machine that is proved down changes its own record alone (R117, R166). -/
theorem detectors_in_lowerEntry (state : s.crossing.state = .lowerEntry) (occupied : s.barrier.zone.occupied = true)
    (present : s.machinePresent i = true) (lowering : s.barrier.machines[i].state = .lowering)
    (down : s.barrier.machines[i].down = false) {w : State}
    (changes : opDetectorChange i false true true s = w) :
    w.crossing = s.crossing ∧ w.barrier.zone.occupied = true ∧ w.barrier.machines[i].state = .downProved ∧
      w.barrier.machines[i].drive = none := by
  obtain ⟨r, detects⟩ : ∃ r, s.barrier.machines[i].detectors s.clock true false true true = r := ⟨_, rfl⟩
  obtain ⟨proved, off⟩ : r.state = .downProved ∧ r.drive = none := detects ▸ detectors_of_lowering lowering s.clock
  have works : r.state ≠ .failed := by rw [proved]; nofun
  have changed : r.state ≠ s.barrier.machines[i].state := by rw [proved, lowering]; nofun
  have sequence : (s.setMachine i r).crossing.state ≠ .testActive := by
    show s.crossing.state ≠ _
    rw [state]
    nofun
  have told : w = (s.setMachine i r).machinesChanged := by
    rw [← changes, opDetectorChange_of_present present (by rw [down]; nofun), detects, machineEvent_of_told changed present,
      putMachine_of_kept (.inl works), machineTold_of_sequence i sequence]
  obtain ⟨crossing, -, machines⟩ := machinesChanged_waiting (s := s.setMachine i r) state occupied
  have machine : w.barrier.machines[i] = r := by
    rw [told, machines]
    exact getElem_set_fin_same _ _ _
  rw [machine, told]
  exact ⟨crossing, (commanding_occupied true).machinesChanged occupied, proved, off⟩

/-- The zone edge taken before the change of the same moment leaves the machine to be proved down (R118, log 47). -/
theorem zoneEdge_first (state : s.crossing.state = .lowerExit) (clear : s.barrier.zone.occupied = false)
    (present : s.machinePresent i = true) (lowering : s.barrier.machines[i].state = .lowering)
    (down : s.barrier.machines[i].down = false)
    (waits : s.pending = [.machineDetectorChange i false true true]) (idle : NoActivation s) :
    Reaches (.zoneEdge true) s fun t => ∃ t' : State, step t = .next t' ∧ t'.crossing.state = .lowerEntry ∧
      t'.barrier.zone.occupied = true ∧ t'.barrier.machines[i].state = .downProved ∧
      t'.barrier.machines[i].drive = none ∧ t'.crossing.lastDir[i] = s.crossing.lastDir[i] := by
  obtain ⟨u, returns⟩ : ∃ u, (s.zoneEntered true).returned = u := ⟨_, rfl⟩
  have back : Returned (s.zoneEntered true) u := returns ▸ returned_back _
  have already : (s.zoneEntered true).alreadyDown i = true := by
    refine (alreadyDown_iff _ i).2 (.inr ?_)
    have after : (s.zoneEntered true).sameMoment = [.machineDetectorChange i false true true] := by
      show s.pending.takeWhile _ = _
      rw [waits]
      rfl
    rw [after, List.foldl_cons, List.foldl_nil, MachineRec.afterWaiting, if_pos rfl]
    exact (detectors_of_lowering lowering s.clock).1
  obtain ⟨machine, lastDir⟩ := back.unsent (sentBack_of_down already)
  have occupied : u.barrier.zone.occupied = true := congrArg ZoneRec.occupied back.zone
  obtain ⟨crossing, -, machines⟩ := machinesChanged_waiting back.state occupied
  have only : ControlOnly s u.machinesChanged := by
    have told := zoneTold_of_lowerExit (s := s.zoneEntered true) state rfl
    rw [returns] at told
    exact told ▸ (setZone_only s _).trans (zoneTold_only _)
  obtain ⟨t, ends⟩ : ∃ t, u.machinesChanged.finish = t := ⟨_, rfl⟩
  have ended : LineFrame u.machinesChanged t := ends ▸ finish_line_frame _
  obtain ⟨crossing', -, -, barrier', store'⟩ := ended.blocks
  have frame : ControlFrame s t := only.ended ended
  have pending : t.pending = [.machineDetectorChange i false true true] := by rw [frame.2.2, ← waits]
  have idle' : NoActivation t := by
    rw [NoActivation, store']
    exact only.idle idle
  refine ⟨t, ?_, ?_⟩
  · rw [zoneEdge_returns state clear, returns, settle_of_idle (only.idle idle), ends]
  · obtain ⟨t₀, taken⟩ : ∃ t₀ : State, { t with pending := [] } = t₀ := ⟨_, rfl⟩
    obtain ⟨w, changes⟩ : ∃ w, opDetectorChange i false true true t₀ = w := ⟨_, rfl⟩
    have stepped : step t = .next w.settle := by
      rw [step, pending]
      show exec _ { t with pending := [] } = _
      rw [taken, ← changes]
      rfl
    have machine₀ : t₀.barrier.machines[i] = s.barrier.machines[i] := by
      rw [← taken]
      show t.barrier.machines[i] = _
      rw [barrier', machines, machine]
      rfl
    have crossing₀ : t₀.crossing = u.crossing := by rw [← taken, ← crossing, ← crossing']
    have present₀ : t₀.machinePresent i = true := by
      rw [← present, ← taken]
      show t.machinePresent i = _
      simp only [State.machinePresent, State.par, store', only.keeps.2.2.2.2.2.1]
    have occupied₀ : t₀.barrier.zone.occupied = true := by
      rw [← taken]
      show t.barrier.zone.occupied = true
      rw [barrier']
      exact (commanding_occupied true).machinesChanged occupied
    obtain ⟨kept, still, proved, off⟩ := detectors_in_lowerEntry (s := t₀) (by rw [crossing₀]; exact back.state) occupied₀
      present₀ (by rw [machine₀]; exact lowering) (by rw [machine₀]; exact down) changes
    have quiet : NoActivation w := by
      rw [← changes]
      exact (opDetectorChange_only i _ _ _ t₀).idle (taken ▸ idle')
    obtain ⟨crossing'', -, -, barrier'', -⟩ := (finish_line_frame w).blocks
    refine ⟨w.settle, stepped, ?_⟩
    rw [settle_of_idle quiet, crossing'', barrier'', kept, crossing₀]
    exact ⟨back.state, still, proved, off, lastDir⟩

end ZoneReturn

/-! ### The hold deadline and the cabinet inputs (R171, R195) -/

section Cabinet

variable {s u : State} {b : Bool}

theorem exec_holdDeadline_of_early (early : s.holdDue = false) : exec .holdDeadline s = .next s.settle :=
  exec_of_acts opHoldDeadline rfl (if_neg (Bool.eq_false_iff.1 early))

theorem exec_holdDeadline_of_due (waiting : s.barrier.zone.waiting = true) (reached : due s.barrier.zone.holdBy s.clock = true) :
    exec .holdDeadline s = .next (State.settle (State.raise { s with barrier := { s.barrier with
      zone := { s.barrier.zone with holdBy := none, condition := true } } } .zoneHold ⟨.zone, 0⟩ .urgent)) :=
  exec_of_acts opHoldDeadline rfl (if_pos (Bool.and_eq_true_iff.2 ⟨waiting, reached⟩))

theorem exec_battLow_of_new (new : s.pins.battLow ≠ b) (entered : u = { s with pins := { s.pins with battLow := b } }) :
    exec (.battLowEdge b) s =
      .next (State.settle (if b then u.raise .batteryLow ⟨.cabinet, 0⟩ .advisory else u.clear .batteryLow ⟨.cabinet, 0⟩)) := by
  rw [entered]
  exact exec_of_acts (opBattLow b) rfl (if_neg new)

theorem exec_mainsOff_of_new (new : s.pins.mainsOff ≠ b) (entered : u = { s with pins := { s.pins with mainsOff := b } }) :
    exec (.mainsOffEdge b) s =
      .next (State.settle (if b then u.raise .mainsOff ⟨.cabinet, 0⟩ .advisory else u.clear .mainsOff ⟨.cabinet, 0⟩)) := by
  rw [entered]
  exact exec_of_acts (opMainsOff b) rfl (if_neg new)

end Cabinet

/-- Settles O55: each edge by what it finds; the return is followed at each exit machine, then along the change that waits at
the same moment. -/
theorem zoneAndCabinetInputsAreTaken : Obligations.ZoneAndCabinetInputsAreTaken := by
  refine fun b s => ⟨exec_zoneEdge_of_held, zoneEdge_reached, exec_holdDeadline_of_early, exec_holdDeadline_of_due,
    fun new u => exec_battLow_of_new new, fun new u => exec_mainsOff_of_new new, fun state occupied u v cleared ended => ?_,
    fun state clear => ?_, fun i state clear present _ lowering down _ waits idle =>
      zoneEdge_first state clear present lowering down waits idle⟩
  · refine zoneEdge_clears state occupied ?_
    rw [endWait_cleared, ended, cleared]
  · obtain ⟨u, returns⟩ : ∃ u, (s.zoneEntered true).returned = u := ⟨_, rfl⟩
    have back : Returned (s.zoneEntered true) u := returns ▸ returned_back _
    have crossing := returned_crossing (s := s.zoneEntered true) state back
    have permitted : u.crossing.remoteOpen = s.crossing.remoteOpen := (congrArg CrossingRec.remoteOpen crossing).trans rfl
    refine ⟨u, returns ▸ zoneEdge_returns state clear, back.blocks, ?_, ?_, ?_, back.zone,
      fun i q down present exit waiting is_down => returned_exit back present exit waiting is_down⟩
    · rw [permitted]
      exact crossing
    · rw [back.lights]
      exact enteredLights_command rfl _
    · rw [back.lights]
      rfl

end Sys2Proof.Machine

namespace Sys2Proof.Machine

open Sys2Proof

/-! ### OPEN entered (R123, R133) -/

section Opening

variable {s t : State}

/-- What an auction leaves: all but the owner with its times, and the latches of the remote owner (R134, R121). -/
theorem elect_blocks (s : State) : ∃ owner prior changed close unshut,
    s.elect.authority = { s.authority with owner := owner, prior := prior, changed := changed } ∧
      s.elect.crossing = { s.crossing with remoteClose := close, remoteOpen := unshut } ∧ s.elect.lights = s.lights ∧
      s.elect.clock = s.clock ∧ s.elect.store = s.store := by
  unfold State.elect
  split
  · exact ⟨_, _, _, _, _, rfl, rfl, rfl, rfl, rfl⟩
  · split
    · exact ⟨_, _, _, _, _, rfl, rfl, rfl, rfl, rfl⟩
    · exact ⟨_, _, _, _, _, rfl, rfl, rfl, rfl, rfl⟩

theorem elect_of_winner (wins : s.winner = s.authority.owner) : s.elect = s := by
  unfold State.elect
  rw [if_pos wins, ite_self]

/-- OPEN as it is entered: the authority and the causes stand, and the closure is at its end. -/
theorem openEntered_record (s : State) : s.openEntered.crossing.state = .opened ∧ s.openEntered.crossing.entered = s.clock ∧
    s.openEntered.crossing.loweringStart = none ∧ s.openEntered.authority = s.authority ∧
    s.openEntered.lights = s.enteredLights .opened ∧ s.openEntered.clock = s.clock ∧ s.openEntered.store = s.store := by
  obtain ⟨e, same⟩ : ∃ e, s.enter .opened = e := ⟨_, rfl⟩
  have entry : Entered s e .opened := same ▸ enter_entered s .opened
  unfold State.openEntered
  rw [same]
  refine ⟨congrArg CrossingRec.state entry.crossing, congrArg CrossingRec.entered entry.crossing, rfl, ?_⟩
  dsimp only
  rw [entry.frame]
  exact ⟨rfl, rfl, rfl, rfl⟩

theorem openEntered_causes (s : State) : s.openEntered.causes = s.causes := by
  rw [causes_eq_skeleton, openEntered_skeleton]
  exact causes_of_sight rfl rfl rfl rfl

theorem openEntered_winner (s : State) : s.openEntered.winner = s.winner := by
  obtain ⟨-, -, -, authority, -, -, store⟩ := openEntered_record s
  have same : s.openEntered.winner =
    State.winner { s with authority := s.openEntered.authority, store := s.openEntered.store } := rfl
  rw [same, authority, store]

/-- What entry to OPEN leads to (R123, R133, R114). -/
structure Opened (s t : State) : Prop where
  step : t.authority.step = s.authority.step
  phase : t.authority.phase = s.authority.phase
  stepEnd : t.authority.stepEnd = s.authority.stepEnd
  outcome : t.authority.outcome = s.authority.outcome
  loweringStart : t.crossing.loweringStart = none
  entered : t.crossing.entered = s.clock
  quiet : s.winner = s.authority.owner → s.causes = [] → t.crossing.state = .opened ∧ t.lights.command = .dark
  caused : s.winner = s.authority.owner → s.causes ≠ [] → t.crossing.state = .amber ∧ t.lights.command = .amber

theorem enterOpen_opened (s : State) : Opened s s.enterOpen := by
  obtain ⟨state, entered, lowering, authority, lights, clock, -⟩ := openEntered_record s
  obtain ⟨o, opens⟩ : ∃ o, s.openEntered = o := ⟨_, rfl⟩
  have winner := openEntered_winner s
  have causes := openEntered_causes s
  have ends_clear := enterOpen_of_clear s
  have ends_caused := enterOpen_of_caused s
  rw [opens] at state entered lowering authority lights clock winner causes ends_clear ends_caused
  obtain ⟨owner, prior, changed, close, unshut, authority', crossing', lights', clock', -⟩ := elect_blocks o
  have same (wins : s.winner = s.authority.owner) : o.elect = o := elect_of_winner (by rw [winner, wins, authority])
  obtain ⟨step, phase, stepEnd, outcome⟩ : o.elect.authority.step = s.authority.step ∧
      o.elect.authority.phase = s.authority.phase ∧ o.elect.authority.stepEnd = s.authority.stepEnd ∧
      o.elect.authority.outcome = s.authority.outcome := by
    rw [authority', ← authority]
    exact ⟨rfl, rfl, rfl, rfl⟩
  by_cases clear : o.elect.causes = []
  · rw [ends_clear clear]
    refine ⟨step, phase, stepEnd, outcome, ?_, ?_, fun wins _ => ?_, fun wins some => ?_⟩
    · rw [crossing']
      exact lowering
    · rw [crossing']
      exact entered
    · rw [same wins, lights]
      exact ⟨state, enteredLights_command rfl s⟩
    · rw [same wins, causes] at clear
      exact absurd clear some
  · have unshut : o.elect.crossing.state.isClosed = false := by
      rw [elect_state, state]
      rfl
    rw [ends_caused clear, enterAmber_eq unshut]
    refine ⟨step, phase, stepEnd, outcome, ?_, clock'.trans clock, fun wins none => ?_,
      fun _ _ => ⟨rfl, enteredLights_command rfl _⟩⟩
    · show o.elect.crossing.loweringStart = none
      rw [crossing']
      exact lowering
    · rw [same wins, causes] at clear
      exact absurd none clear

end Opening

/-! ### The end of a LAMP TEST (R141) -/

section LampTest

variable {s : State}

theorem exec_lampTestEnd_of_early (early : s.authority.step ≠ .lampTest ∨ due s.authority.stepEnd s.clock = false) :
    exec .lampTestEnd s = .next s.settle := by
  have waits : s.lampTestDue = false := by
    rw [Bool.eq_false_iff, Ne, State.lampTestDue, Bool.and_eq_true, decide_eq_true_eq]
    rintro ⟨step, reached⟩
    rcases early with other | early
    · exact other step
    · rw [early] at reached
      cases reached
  exact exec_of_acts opLampTestEnd rfl (if_neg (Bool.eq_false_iff.1 waits))

/-- The authority record of a test step that has ended (R141, R142). -/
def State.stepOver (s : State) (o : StepOutcome) : State :=
  { s with authority := { s.authority with step := .none, phase := .none, stepEnd := none, outcome := o } }

theorem lampTestEnd_reached (step : s.authority.step = .lampTest) (reached : due s.authority.stepEnd s.clock = true)
    (idle : NoActivation s) : Reaches .lampTestEnd s fun t =>
      ControlFrame s t ∧ t.authority.step = .none ∧ t.authority.phase = .none ∧ t.authority.stepEnd = none ∧
      t.authority.outcome = .complete ∧ t.crossing.loweringStart = none ∧ t.crossing.entered = s.clock ∧
      (s.winner = s.authority.owner → s.causes = [] → t.crossing.state = .opened ∧ t.lights.command = .dark) ∧
      (s.winner = s.authority.owner → s.causes ≠ [] → t.crossing.state = .amber ∧ t.lights.command = .amber) := by
  have ends : opLampTestEnd s = s.endStep .complete := if_pos ((lampTestDue_iff s).2 ⟨step, (due_iff _ _).1 reached⟩)
  obtain ⟨u, opens⟩ : ∃ u, (s.stepOver .complete).enterOpen = u := ⟨_, rfl⟩
  have opened : Opened (s.stepOver .complete) u := opens ▸ enterOpen_opened _
  have only : ControlOnly s u := opens ▸ endStep_only s .complete
  have run : exec .lampTestEnd s = .next u.settle := exec_of_acts opLampTestEnd rfl (ends.trans opens)
  refine ⟨_, run, ?_⟩
  rw [settle_of_idle (only.idle idle)]
  have ended := finish_line_frame u
  obtain ⟨crossing, authority, lights, -, -⟩ := ended.blocks
  refine ⟨only.ended ended, ?_⟩
  rw [crossing, authority, lights]
  exact ⟨opened.step, opened.phase, opened.stepEnd, opened.outcome, opened.loweringStart, opened.entered, opened.quiet,
    opened.caused⟩

end LampTest

/-! ### MACHINE CYCLE (R142) -/

section Cycle

variable {s : State} {i : Fin 4}

/-- RAISE sent in a MACHINE CYCLE to a machine that is not FAILED. -/
theorem cycleRaise_eq (works : s.barrier.machines[i].state ≠ .failed) : s.cycleRaise i =
    { s with authority := { s.authority with phase := .raising }
             barrier := { s.barrier with
               machines := s.barrier.machines.set i (s.barrier.machines[i].command s.clock .raise) }
             crossing := { s.crossing with lastDir := s.crossing.lastDir.set i (some .raise) } } :=
  sendMachine_of_working (s := { s with authority := { s.authority with phase := .raising } }) works .raise

/-- A machine that starts to rise, its UP inactive, is RAISING (R159). -/
theorem command_raise_of_below {r : MachineRec} (below : r.state = .downProved ∨ r.state = .lowering) (up : r.up = false)
    (now : Time) : (r.command now .raise).state = .raising := by
  have started : r.command now .raise = r.start now .raise := by
    unfold MachineRec.command
    rcases below with state | state <;> rw [state] <;> rfl
  rw [started, start_eq, if_neg]
  · rfl
  · show ¬ r.up = true
    rw [up]
    nofun

theorem cycleEnd_of_moving (moving : s.barrier.machines[i].state = .lowering ∨ s.barrier.machines[i].state = .raising ∨
    s.barrier.machines[i].state = .halted) : s.cycleEnd i = s := by
  unfold State.cycleEnd
  rcases moving with state | state | state <;> rw [state]

/-- RAISE sent to a machine that is down or lowering, its UP inactive: it rises, and the step goes on. -/
theorem cycleRaise_goes_on (below : s.barrier.machines[i].state = .downProved ∨ s.barrier.machines[i].state = .lowering)
    (up : s.barrier.machines[i].up = false) : (s.cycleRaise i).cycleEnd i =
      { s with authority := { s.authority with phase := .raising }
               barrier := { s.barrier with
                 machines := s.barrier.machines.set i (s.barrier.machines[i].command s.clock .raise) }
               crossing := { s.crossing with lastDir := s.crossing.lastDir.set i (some .raise) } } := by
  have works : s.barrier.machines[i].state ≠ .failed := by rcases below with state | state <;> rw [state] <;> nofun
  have machine : (s.cycleRaise i).barrier.machines[i] = s.barrier.machines[i].command s.clock .raise := by
    rw [cycleRaise_eq works]
    exact getElem_set_fin_same _ _ _
  rw [cycleEnd_of_moving (.inr (.inl (by rw [machine]; exact command_raise_of_below below up s.clock))), cycleRaise_eq works]

theorem cycleAdvance_of_lowered (step : s.authority.step = .machineCycle i) (phase : s.authority.phase = .lowering)
    (state : s.barrier.machines[i].state = .downProved) : s.cycleAdvance i = (s.cycleRaise i).cycleEnd i :=
  (if_pos step).trans (if_pos ⟨phase, state⟩)

theorem cycleAdvance_of_other (step : s.authority.step = .machineCycle i) (state : s.barrier.machines[i].state ≠ .downProved) :
    s.cycleAdvance i = s.cycleEnd i := (if_pos step).trans (if_neg fun both => state both.2)

/-- The end of a MACHINE CYCLE (R142). -/
theorem cycleAdvance_of_end (step : s.authority.step = .machineCycle i) (ends : s.barrier.machines[i].state = .failed ∨
    s.authority.phase = .raising ∧ s.barrier.machines[i].state = .upProved) : s.cycleAdvance i =
      State.enterOpen { s with authority := { s.authority with
        step := .none, phase := .none, stepEnd := none,
        outcome := if s.barrier.machines[i].state = .failed then .failed else .complete } } := by
  rcases ends with state | ⟨phase, state⟩
  · rw [cycleAdvance_of_other step (by rw [state]; nofun), State.cycleEnd, state]
    cases s.authority.phase <;> rfl
  · rw [cycleAdvance_of_other step (by rw [state]; nofun), State.cycleEnd, state, phase]
    rfl

theorem cycleZone_of_exit (step : s.authority.step = .machineCycle i) (phase : s.authority.phase = .lowering)
    (exit : s.role i = .exit) (occupied : s.barrier.zone.occupied = true) : s.cycleZone = (s.cycleRaise i).cycleEnd i := by
  rw [State.cycleZone, step]
  exact if_pos (by rw [occupied, phase, exit]; rfl)

end Cycle

end Sys2Proof.Machine

namespace Sys2Proof.Machine

open Sys2Proof

/-! ### A step abandoned (R126, R143) -/

section Abandoned

variable {s u : State}

/-- The authority record of a step that a closure cause has abandoned (R143). -/
def State.stepAbandoned (s : State) : State :=
  { s with authority := { s.authority with
      testRequest := false, outcome := .abandoned, step := .none, phase := .none, stepEnd := none } }

theorem abandonStep_of_raising {i : Fin 4} (step : s.authority.step = .machineCycle i)
    (raising : s.barrier.machines[i].state = .raising) : s.abandonStep = s.stepAbandoned.sendMachine i .lower := by
  rw [State.abandonStep, step]
  exact if_pos raising

theorem abandonStep_of_still (still : ∀ i : Fin 4, s.authority.step = .machineCycle i → s.barrier.machines[i].state ≠ .raising) :
    s.abandonStep = s.stepAbandoned := by
  unfold State.abandonStep
  dsimp only
  split
  next i step => exact if_neg (still i step)
  · rfl

/-- An abandoned step sends LOWER to the machine of a MACHINE CYCLE that rises, and nothing else (R126). -/
theorem abandonStep_sent (s : State) : Sent s.stepAbandoned s.abandonStep fun i =>
    if s.authority.step = .machineCycle i ∧ s.barrier.machines[i].state = .raising then some .lower else none := by
  by_cases cycles : ∃ i, s.authority.step = .machineCycle i ∧ s.barrier.machines[i].state = .raising
  · obtain ⟨i, step, raising⟩ := cycles
    have sent := (sent_nothing s.stepAbandoned).sendIf rfl (i := i) (some .lower)
    rw [abandonStep_of_raising step raising]
    refine (congrArg (Sent _ _) (funext fun k => ?_)).mp sent
    by_cases at_i : k = i
    · subst at_i
      rw [Function.update_self, if_pos ⟨step, raising⟩]
    · rw [Function.update_of_ne at_i, if_neg]
      rintro ⟨step', -⟩
      exact at_i (Step.machineCycle.inj (step'.symm.trans step))
  · rw [abandonStep_of_still fun i step raising => cycles ⟨i, step, raising⟩]
    refine (congrArg (Sent _ _) (funext fun k => ?_)).mp (sent_nothing _)
    rw [if_neg fun both => cycles ⟨k, both⟩]

/-- A closure cause in TEST_ACTIVE (R126, R114, R143). -/
theorem causesChanged_abandons (state : s.crossing.state = .testActive) (caused : s.causes ≠ []) : ∃ u : State,
    s.causesChanged = u ∧
      u = { s with crossing := u.crossing, authority := u.authority, lights := u.lights, barrier := u.barrier } ∧
      u.authority = { s.authority with
        testRequest := false, outcome := .abandoned, step := .none, phase := .none, stepEnd := none } ∧
      u.crossing.state = .amber ∧ u.crossing.entered = s.clock ∧
      u.crossing.stateTimer = some (s.clock + BitVec.ofNat 32 (s.par 0 Plan.tAmber)) ∧ u.lights.command = .amber ∧
      u.lights.audible = true ∧ ∀ i : Fin 4,
        (s.authority.step = .machineCycle i → s.barrier.machines[i].state = .raising →
          u.barrier.machines[i] = s.barrier.machines[i].command s.clock .lower ∧ u.crossing.lastDir[i] = some .lower) ∧
        (s.authority.step ≠ .machineCycle i ∨ s.barrier.machines[i].state ≠ .raising →
          u.barrier.machines[i] = s.barrier.machines[i] ∧ u.crossing.lastDir[i] = s.crossing.lastDir[i]) := by
  obtain ⟨a, amber⟩ : ∃ a, s.enterAmber = a := ⟨_, rfl⟩
  have entered := (enterAmber_eq (s := s) (by rw [state]; rfl)).symm.trans amber
  obtain ⟨u, abandons⟩ : ∃ u, a.abandonStep = u := ⟨_, rfl⟩
  have sent := abandons ▸ abandonStep_sent a
  rw [← entered] at sent
  have crossing := congrArg State.crossing sent.frame
  have lights : u.lights = s.enteredLights .amber := congrArg State.lights sent.frame
  refine ⟨u, by rw [causesChanged_of_test state caused, amber, abandons], by rw [sent.frame]; rfl,
    congrArg State.authority sent.frame, congrArg CrossingRec.state crossing, congrArg CrossingRec.entered crossing,
    congrArg CrossingRec.stateTimer crossing, ?_, ?_, fun i => ⟨fun step raising => ?_, fun still => ?_⟩⟩
  · rw [lights]
    exact enteredLights_command rfl s
  · rw [lights]
    rfl
  · have works : s.barrier.machines[i].state ≠ .failed := by rw [raising]; nofun
    refine ⟨(sent.machine i).trans ?_, (sent.lastDir i).trans ?_⟩
    · rw [if_pos ⟨step, raising⟩]
      rfl
    · rw [if_pos (c := _ ∧ _) ⟨step, raising⟩]
      exact if_neg works
  · refine sent.unsent (if_neg ?_)
    rintro ⟨step, raising⟩
    exact still.elim (fun other => other step) fun other => other raising

theorem causesChanged_of_quiet_test (state : s.crossing.state = .testActive) (clear : s.causes = []) : s.causesChanged = s := by
  rw [State.causesChanged, state]
  exact if_pos (List.isEmpty_iff.2 clear)

end Abandoned

/-! ### TEST STEP (R139 to R142) -/

section TestStep

variable {s : State} {tag step m : Byte} {i : Fin 4} {st : Step}

theorem exec_testStep (tag step m : Byte) (s : State) :
    exec (.testStep tag step m) s = .next (cmdTestStep tag step m s.hear).settle := rfl

theorem exec_testStep_of_other (other : s.authority.owner ≠ .test) :
    exec (.testStep tag step m) s = .next (s.hear.reply 0 tag .refusedState .none).settle := by
  have owner : s.hear.authority.owner ≠ .test := other
  rw [exec_testStep, cmdTestStep, if_pos owner]

theorem exec_testStep_of_unnamed (owner : s.authority.owner = .test) (unnamed : s.stepNamed step.toNat m.toNat = none) :
    exec (.testStep tag step m) s = .next (s.hear.reply 0 tag .refusedRange .none).settle := by
  have owner' : s.hear.authority.owner = .test := owner
  have unnamed' : s.hear.stepNamed step.toNat m.toNat = none := unnamed
  rw [exec_testStep, cmdTestStep, if_neg (not_not_intro owner'), unnamed']

theorem exec_testStep_of_refused {o : ReplyOutcome} (owner : s.authority.owner = .test)
    (named : s.stepNamed step.toNat m.toNat = some st) (outcome : s.stepOutcome st = o) (refused : o ≠ .done) :
    exec (.testStep tag step m) s = .next (s.hear.reply 0 tag o .none).settle := by
  have owner' : s.hear.authority.owner = .test := owner
  have named' : s.hear.stepNamed step.toNat m.toNat = some st := named
  have outcome' : s.hear.stepOutcome st = o := outcome
  rw [exec_testStep, cmdTestStep, if_neg (not_not_intro owner'), named']
  dsimp only
  rw [outcome']
  cases o with
  | done => exact absurd rfl refused
  | _ => rfl

theorem exec_testStep_of_done (owner : s.authority.owner = .test) (named : s.stepNamed step.toNat m.toNat = some st)
    (outcome : s.stepOutcome st = .done) :
    exec (.testStep tag step m) s = .next ((s.hear.beginStep tag st).reply 0 tag .done (.step st)).settle := by
  have owner' : s.hear.authority.owner = .test := owner
  have named' : s.hear.stepNamed step.toNat m.toNat = some st := named
  have outcome' : s.hear.stepOutcome st = .done := outcome
  rw [exec_testStep, cmdTestStep, if_neg (not_not_intro owner'), named']
  dsimp only
  rw [outcome']

/-! The step named, and the conditions in their order. -/

theorem stepNamed_of_lampTest (zero : step = 0) (s : State) (m : Nat) : s.stepNamed step.toNat m = some .lampTest := by
  rw [zero]
  rfl

theorem stepNamed_of_beyond (beyond : 1 < step.toNat) (s : State) (m : Nat) : s.stepNamed step.toNat m = none := by
  rw [State.stepNamed, if_neg (by omega), if_neg (by omega)]

theorem stepNamed_of_cycle (one : step = 1) (index : m.toNat = i.val) (present : s.machinePresent i = true) :
    s.stepNamed step.toNat m.toNat = some (.machineCycle i) := by
  have within : m.toNat < 4 := index ▸ i.isLt
  obtain rfl : i = ⟨m.toNat, within⟩ := Fin.ext index.symm
  rw [one]
  exact (dif_pos within).trans (if_pos present)

theorem stepNamed_of_absent (one : step = 1) (absent : ∀ i : Fin 4, m.toNat = i.val → s.machinePresent i = false) :
    s.stepNamed step.toNat m.toNat = none := by
  rw [one]
  by_cases within : m.toNat < 4
  · exact (dif_pos within).trans (if_neg (by rw [absent ⟨m.toNat, within⟩ rfl]; nofun))
  · exact dif_neg within

theorem any_group_iff (s : State) : (List.finRange 4).any s.groupPresent = true ↔ ∃ g : Fin 4, s.groupPresent g = true := by
  simp

/-- A demand that is not IDLE holds a test step off (R140). -/
theorem busy_iff (s : State) : (!s.demands.all fun d => decide (d.state = .idle)) = true ↔ ∃ d ∈ s.demands, d.state ≠ .idle := by
  simp

theorem not_busy (idle : ∀ d ∈ s.demands, d.state = .idle) : ¬ (!s.demands.all fun d => decide (d.state = .idle)) = true := by
  rw [busy_iff]
  rintro ⟨d, mem, busy⟩
  exact busy (idle d mem)

theorem stepOutcome_of_dark (dark : ∀ g : Fin 4, s.groupPresent g = false) : s.stepOutcome .lampTest = .refusedRange := by
  refine if_pos ?_
  rw [Bool.not_eq_true', Bool.eq_false_iff, Ne, any_group_iff]
  rintro ⟨g, present⟩
  rw [dark g] at present
  cases present

theorem lit_group (lit : ∃ g : Fin 4, s.groupPresent g = true) : ¬ (!(List.finRange 4).any s.groupPresent) = true := by
  rw [(any_group_iff s).2 lit]
  nofun

theorem stepOutcome_lampTest_of_done (lit : ∃ g : Fin 4, s.groupPresent g = true) (state : s.crossing.state = .opened)
    (idle : ∀ d ∈ s.demands, d.state = .idle) : s.stepOutcome .lampTest = .done :=
  (if_neg (lit_group lit)).trans ((if_neg (not_not_intro state)).trans (if_neg (not_busy idle)))

theorem stepOutcome_lampTest_of_bad (lit : ∃ g : Fin 4, s.groupPresent g = true)
    (bad : s.crossing.state ≠ .opened ∨ ∃ d ∈ s.demands, d.state ≠ .idle) : s.stepOutcome .lampTest = .refusedState := by
  refine (if_neg (lit_group lit)).trans ?_
  by_cases state : s.crossing.state = .opened
  · exact (if_neg (not_not_intro state)).trans (if_pos ((busy_iff s).2 (bad.resolve_left (not_not_intro state))))
  · exact if_pos state

theorem stepOutcome_cycle_of_done (state : s.crossing.state = .opened) (idle : ∀ d ∈ s.demands, d.state = .idle)
    (up : s.barrier.machines[i].state = .upProved) (free : ¬ (s.role i = .exit ∧ s.barrier.zone.occupied = true)) :
    s.stepOutcome (.machineCycle i) = .done :=
  (if_neg (not_not_intro state)).trans ((if_neg (not_busy idle)).trans ((if_neg (not_not_intro up)).trans (if_neg free)))

theorem stepOutcome_cycle_of_bad (bad : s.crossing.state ≠ .opened ∨ (∃ d ∈ s.demands, d.state ≠ .idle) ∨
    s.barrier.machines[i].state ≠ .upProved ∨ s.role i = .exit ∧ s.barrier.zone.occupied = true) :
    s.stepOutcome (.machineCycle i) = .refusedState := by
  by_cases state : s.crossing.state = .opened
  · refine (if_neg (not_not_intro state)).trans ?_
    by_cases busy : ∃ d ∈ s.demands, d.state ≠ .idle
    · exact if_pos ((busy_iff s).2 busy)
    · refine (if_neg fun is => busy ((busy_iff s).1 is)).trans ?_
      by_cases up : s.barrier.machines[i].state = .upProved
      · have held := ((bad.resolve_left (not_not_intro state)).resolve_left busy).resolve_left (not_not_intro up)
        exact (if_neg (not_not_intro up)).trans (if_pos held)
      · exact if_pos up
  · exact if_pos state

/-! The step begun. -/

theorem handed_audible (now : Time) (len : Nat) (present : Fin 4 → Bool) (c : LightCommand) (l : Lights) :
    (l.handed now len present c).audible = l.audible := by
  unfold Lights.handed
  split <;> rfl

/-- The lights of a test step, which gives its own command (R111, R140). -/
def State.testLights (s : State) (c : LightCommand) : Lights :=
  (s.enteredLights .testActive).handed s.clock s.flashHalf s.groupPresent c

theorem testLights_shown (s : State) (c : LightCommand) : (s.testLights c).command = c ∧ (s.testLights c).audible = false :=
  ⟨handed_command _ _ _ _ _, handed_audible _ _ _ _ _⟩

theorem enter_testActive (state : s.crossing.state = .opened) : s.enter .testActive =
    { s with crossing := { s.crossing with state := .testActive, entered := s.clock }
             lights := s.enteredLights .testActive } := by
  rw [enter_of_silent fun _ => rfl, enterRecord_eq, enteredCrossing_of_kept (.inr (by rw [state]; rfl))]

theorem beginStep_lampTest (state : s.crossing.state = .opened) (tag : Byte) : s.beginStep tag .lampTest =
    { s with
      crossing := { s.crossing with state := .testActive, entered := s.clock }
      authority := { s.authority with step := .lampTest, phase := .flashing, outcome := .none, stepTag := tag,
                                      stepEnd := some (after s.clock (10 * s.flashHalf)) }
      lights := s.testLights .amberFlash } := by
  unfold State.beginStep
  dsimp only
  rw [enter_testActive state]
  rfl

theorem beginStep_cycle (state : s.crossing.state = .opened) (up : s.barrier.machines[i].state = .upProved) (tag : Byte) :
    s.beginStep tag (.machineCycle i) =
      { s with
        crossing := { s.crossing with
          state := .testActive, entered := s.clock, lastDir := s.crossing.lastDir.set i (some .lower) }
        authority := { s.authority with step := .machineCycle i, phase := .lowering, outcome := .none, stepTag := tag,
                                        stepEnd := none }
        lights := s.testLights .flash
        barrier := { s.barrier with
          machines := s.barrier.machines.set i (s.barrier.machines[i].command s.clock .lower) } } := by
  have works : s.barrier.machines[i].state ≠ .failed := by rw [up]; nofun
  rw [State.beginStep, enter_testActive state]
  exact sendMachine_of_working (s := State.lightCommand { s with
      crossing := { s.crossing with state := .testActive, entered := s.clock }
      lights := s.enteredLights .testActive
      authority := { s.authority with
        step := .machineCycle i, phase := .lowering, stepEnd := none, outcome := .none, stepTag := tag } } .flash) works .lower

/-- A step begun and answered: TEST_ACTIVE makes no swap. -/
theorem testStep_ends {u : State} (state : u.crossing.state = .testActive) (tag : Byte) (st : Step) :
    LineFrame u (u.reply 0 tag .done (.step st)).settle := by
  have replied := reply_frame u 0 tag .done (.step st)
  have unmet : (u.reply 0 tag .done (.step st)).activationCondition = false := by
    refine activationCondition_of_state ?_ ?_ <;>
    · rw [replied.blocks.1, state]
      nofun
  rw [settle_of_unmet unmet]
  exact replied.trans (finish_line_frame _)

theorem testStep_lampTest (owner : s.authority.owner = .test) (state : s.crossing.state = .opened)
    (idle : ∀ d ∈ s.demands, d.state = .idle) (zero : step = 0) (lit : ∃ g : Fin 4, s.groupPresent g = true) :
    Reaches (.testStep tag step m) s fun t =>
      LineFrame { s.hear with crossing := t.crossing, authority := t.authority, lights := t.lights } t ∧
      t.crossing = { s.crossing with state := .testActive, entered := s.clock } ∧
      t.authority = { s.authority with step := .lampTest, phase := .flashing, outcome := .none, stepTag := tag,
                                       stepEnd := some (s.clock + BitVec.ofNat 32 (10 * s.flashHalf)) } ∧
      t.lights.command = .amberFlash ∧ t.lights.audible = false := by
  refine ⟨_, exec_testStep_of_done owner (stepNamed_of_lampTest zero s _) (stepOutcome_lampTest_of_done lit state idle), ?_⟩
  obtain ⟨u, begun⟩ : ∃ u, s.hear.beginStep tag .lampTest = u := ⟨_, rfl⟩
  have record := (beginStep_lampTest (s := s.hear) state tag).symm.trans begun
  have ended := testStep_ends (u := u) (by rw [← record]) tag .lampTest
  obtain ⟨crossing, authority, lights, -, -⟩ := ended.blocks
  obtain ⟨command, audible⟩ := testLights_shown s.hear .amberFlash
  rw [begun]
  refine ⟨?_, ?_, ?_, ?_, ?_⟩
  · rw [crossing, authority, lights]
    rw [← record] at ended ⊢
    exact ended
  · rw [crossing, ← record]
    rfl
  · rw [authority, ← record]
    rfl
  · rw [lights, ← record]
    exact command
  · rw [lights, ← record]
    exact audible

theorem testStep_cycle (owner : s.authority.owner = .test) (state : s.crossing.state = .opened)
    (idle : ∀ d ∈ s.demands, d.state = .idle) (one : step = 1) (index : m.toNat = i.val) (present : s.machinePresent i = true)
    (up : s.barrier.machines[i].state = .upProved) (free : s.role i = .exit → s.barrier.zone.occupied = false) :
    Reaches (.testStep tag step m) s fun t =>
      LineFrame { s.hear with crossing := t.crossing, authority := t.authority, lights := t.lights, barrier := t.barrier } t ∧
      t.crossing = { s.crossing with state := .testActive, entered := s.clock,
                                     lastDir := s.crossing.lastDir.set i (some .lower) } ∧
      t.authority = { s.authority with step := .machineCycle i, phase := .lowering, outcome := .none, stepTag := tag,
                                       stepEnd := none } ∧
      t.lights.command = .flash ∧ t.lights.audible = false ∧
      t.barrier = { s.barrier with
        machines := s.barrier.machines.set i (s.barrier.machines[i].command s.clock .lower) } := by
  have clear : ¬ (s.role i = .exit ∧ s.barrier.zone.occupied = true) := by
    rintro ⟨exit, occupied⟩
    rw [free exit] at occupied
    cases occupied
  refine ⟨_, exec_testStep_of_done owner (stepNamed_of_cycle one index present)
    (stepOutcome_cycle_of_done state idle up clear), ?_⟩
  obtain ⟨u, begun⟩ : ∃ u, s.hear.beginStep tag (.machineCycle i) = u := ⟨_, rfl⟩
  have record := (beginStep_cycle (s := s.hear) state up tag).symm.trans begun
  have ended := testStep_ends (u := u) (by rw [← record]) tag (.machineCycle i)
  obtain ⟨crossing, authority, lights, barrier, -⟩ := ended.blocks
  obtain ⟨command, audible⟩ := testLights_shown s.hear .flash
  rw [begun]
  refine ⟨?_, ?_, ?_, ?_, ?_, ?_⟩
  · rw [crossing, authority, lights, barrier]
    rw [← record] at ended ⊢
    exact ended
  · rw [crossing, ← record]
    rfl
  · rw [authority, ← record]
    rfl
  · rw [lights, ← record]
    exact command
  · rw [lights, ← record]
    exact audible
  · rw [barrier, ← record]
    rfl

/-- TEST STEP refused in the states and on the machines that allow no step (R140). -/
theorem exec_testStep_of_bad (owner : s.authority.owner = .test)
    (names : (step = 0 ∧ (∃ g : Fin 4, s.groupPresent g = true)) ∨
      (step = 1 ∧ ∃ i : Fin 4, m.toNat = i.val ∧ s.machinePresent i = true))
    (bad : s.crossing.state ≠ .opened ∨ (∃ d ∈ s.demands, d.state ≠ .idle) ∨
      (step = 1 ∧ ∃ i : Fin 4, m.toNat = i.val ∧ (s.barrier.machines[i].state ≠ .upProved ∨
        (s.role i = .exit ∧ s.barrier.zone.occupied = true)))) :
    exec (.testStep tag step m) s = .next (s.hear.reply 0 tag .refusedState .none).settle := by
  rcases names with ⟨zero, lit⟩ | ⟨one, i, index, present⟩
  · refine exec_testStep_of_refused owner (stepNamed_of_lampTest zero s _) (stepOutcome_lampTest_of_bad lit ?_) nofun
    refine bad.imp_right fun rest => rest.resolve_right ?_
    rintro ⟨one, -⟩
    rw [zero] at one
    cases one
  · refine exec_testStep_of_refused owner (stepNamed_of_cycle one index present) (stepOutcome_cycle_of_bad ?_) nofun
    refine bad.imp_right (Or.imp_right ?_)
    rintro ⟨-, j, index', machine⟩
    obtain rfl : i = j := Fin.ext (index.symm.trans index')
    exact machine

theorem exec_testStep_of_range (owner : s.authority.owner = .test)
    (beyond : 1 < step.toNat ∨ (step = 1 ∧ ∀ i : Fin 4, m.toNat = i.val → s.machinePresent i = false) ∨
      (step = 0 ∧ ∀ g : Fin 4, s.groupPresent g = false)) :
    exec (.testStep tag step m) s = .next (s.hear.reply 0 tag .refusedRange .none).settle := by
  rcases beyond with beyond | ⟨one, absent⟩ | ⟨zero, dark⟩
  · exact exec_testStep_of_unnamed owner (stepNamed_of_beyond beyond s _)
  · exact exec_testStep_of_unnamed owner (stepNamed_of_absent one absent)
  · exact exec_testStep_of_refused owner (stepNamed_of_lampTest zero s _) (stepOutcome_of_dark dark) nofun

end TestStep

/-- Settles O47: the end of a LAMP TEST, the refusals of TEST STEP in their order, the advance of a MACHINE CYCLE, a step
abandoned, and the steps begun. -/
theorem testStepsBeginAndLampTestsEnd : Obligations.TestStepsBeginAndLampTestsEnd := by
  refine fun tag step m s => ⟨exec_lampTestEnd_of_early, lampTestEnd_reached, exec_testStep_of_other, exec_testStep_of_range,
    exec_testStep_of_bad, fun i cycle => ⟨cycleAdvance_of_end cycle, fun phase down u raised up => ?_,
      fun phase exit occupied lowering up u raised => ?_, fun moving => ?_⟩,
    fun state => ⟨causesChanged_of_quiet_test state, causesChanged_abandons state⟩,
    fun owner state idle => ⟨testStep_lampTest owner state idle, fun i => testStep_cycle owner state idle⟩⟩
  · rw [cycleAdvance_of_lowered cycle phase down, cycleRaise_goes_on (.inl down) up, raised]
  · rw [cycleZone_of_exit cycle phase exit occupied, cycleRaise_goes_on (.inr lowering) up, raised]
  · rw [cycleAdvance_of_other cycle (by rcases moving with state | state | state <;> rw [state] <;> nofun),
      cycleEnd_of_moving moving]

end Sys2Proof.Machine
